-- ==== Sys2Proof/Word.lean ====
section
/-! DEFINITION. The two word types of the machine (spec/00_scope.md R6, R7): 8-bit bytes for A, X, Y, S, P
and the bus data, 16-bit words for PC and the bus address. Arithmetic on them wraps as R8's `wrap8` and `wrap16`. -/

namespace Sys2Proof

/-- An 8-bit value: A, X, Y, S, P read as a byte, and bus data (R6, R7). -/
abbrev Byte := BitVec 8

/-- A 16-bit value: PC and bus addresses (R6, R7, R40). -/
abbrev Addr := BitVec 16

end Sys2Proof
end

