-- ==== Sys2Proof/Syntax.lean ====
section
/-! DEFINITION. The instructions: one constructor for each of the 151 rows of spec/opcode_table.json
(spec/30_encoding.md R80), named by mnemonic and addressing form, with its operand as R70 and R81 give it:
`imm8` an immediate byte, `zp8` a zero-page address or pointer, `disp8` a branch displacement,
`abs16` an address or jump target, `ptr16` the pointer of the indirect jump. -/

namespace Sys2Proof

/-- The instruction set (R80). The suffix names the form: Imm, Acc, Zp, ZpX, ZpY, IndX = (zp,X), IndY = (zp),Y,
Abs, AbsX, AbsY; the implied, relative and absolute-target forms have none, but for the two jumps. -/
inductive Instr where
  | brk
  | oraIndX (zp8 : Byte)
  | oraZp (zp8 : Byte)
  | oraImm (imm8 : Byte)
  | oraAbs (abs16 : Addr)
  | oraIndY (zp8 : Byte)
  | oraZpX (zp8 : Byte)
  | oraAbsY (abs16 : Addr)
  | oraAbsX (abs16 : Addr)
  | aslZp (zp8 : Byte)
  | aslAcc
  | aslAbs (abs16 : Addr)
  | aslZpX (zp8 : Byte)
  | aslAbsX (abs16 : Addr)
  | php
  | bpl (disp8 : Byte)
  | clc
  | jsr (abs16 : Addr)
  | andIndX (zp8 : Byte)
  | andZp (zp8 : Byte)
  | andImm (imm8 : Byte)
  | andAbs (abs16 : Addr)
  | andIndY (zp8 : Byte)
  | andZpX (zp8 : Byte)
  | andAbsY (abs16 : Addr)
  | andAbsX (abs16 : Addr)
  | bitZp (zp8 : Byte)
  | bitAbs (abs16 : Addr)
  | rolZp (zp8 : Byte)
  | rolAcc
  | rolAbs (abs16 : Addr)
  | rolZpX (zp8 : Byte)
  | rolAbsX (abs16 : Addr)
  | plp
  | bmi (disp8 : Byte)
  | sec
  | rti
  | eorIndX (zp8 : Byte)
  | eorZp (zp8 : Byte)
  | eorImm (imm8 : Byte)
  | eorAbs (abs16 : Addr)
  | eorIndY (zp8 : Byte)
  | eorZpX (zp8 : Byte)
  | eorAbsY (abs16 : Addr)
  | eorAbsX (abs16 : Addr)
  | lsrZp (zp8 : Byte)
  | lsrAcc
  | lsrAbs (abs16 : Addr)
  | lsrZpX (zp8 : Byte)
  | lsrAbsX (abs16 : Addr)
  | pha
  | jmpAbs (abs16 : Addr)
  | jmpInd (ptr16 : Addr)
  | bvc (disp8 : Byte)
  | cli
  | rts
  | adcIndX (zp8 : Byte)
  | adcZp (zp8 : Byte)
  | adcImm (imm8 : Byte)
  | adcAbs (abs16 : Addr)
  | adcIndY (zp8 : Byte)
  | adcZpX (zp8 : Byte)
  | adcAbsY (abs16 : Addr)
  | adcAbsX (abs16 : Addr)
  | rorZp (zp8 : Byte)
  | rorAcc
  | rorAbs (abs16 : Addr)
  | rorZpX (zp8 : Byte)
  | rorAbsX (abs16 : Addr)
  | pla
  | bvs (disp8 : Byte)
  | sei
  | staIndX (zp8 : Byte)
  | staZp (zp8 : Byte)
  | staAbs (abs16 : Addr)
  | staIndY (zp8 : Byte)
  | staZpX (zp8 : Byte)
  | staAbsY (abs16 : Addr)
  | staAbsX (abs16 : Addr)
  | styZp (zp8 : Byte)
  | styAbs (abs16 : Addr)
  | styZpX (zp8 : Byte)
  | stxZp (zp8 : Byte)
  | stxAbs (abs16 : Addr)
  | stxZpY (zp8 : Byte)
  | dey
  | txa
  | bcc (disp8 : Byte)
  | tya
  | txs
  | ldyImm (imm8 : Byte)
  | ldyZp (zp8 : Byte)
  | ldyAbs (abs16 : Addr)
  | ldyZpX (zp8 : Byte)
  | ldyAbsX (abs16 : Addr)
  | ldaIndX (zp8 : Byte)
  | ldaZp (zp8 : Byte)
  | ldaImm (imm8 : Byte)
  | ldaAbs (abs16 : Addr)
  | ldaIndY (zp8 : Byte)
  | ldaZpX (zp8 : Byte)
  | ldaAbsY (abs16 : Addr)
  | ldaAbsX (abs16 : Addr)
  | ldxImm (imm8 : Byte)
  | ldxZp (zp8 : Byte)
  | ldxAbs (abs16 : Addr)
  | ldxZpY (zp8 : Byte)
  | ldxAbsY (abs16 : Addr)
  | tay
  | tax
  | bcs (disp8 : Byte)
  | clv
  | tsx
  | cpyImm (imm8 : Byte)
  | cpyZp (zp8 : Byte)
  | cpyAbs (abs16 : Addr)
  | cmpIndX (zp8 : Byte)
  | cmpZp (zp8 : Byte)
  | cmpImm (imm8 : Byte)
  | cmpAbs (abs16 : Addr)
  | cmpIndY (zp8 : Byte)
  | cmpZpX (zp8 : Byte)
  | cmpAbsY (abs16 : Addr)
  | cmpAbsX (abs16 : Addr)
  | decZp (zp8 : Byte)
  | decAbs (abs16 : Addr)
  | decZpX (zp8 : Byte)
  | decAbsX (abs16 : Addr)
  | iny
  | dex
  | bne (disp8 : Byte)
  | cld
  | cpxImm (imm8 : Byte)
  | cpxZp (zp8 : Byte)
  | cpxAbs (abs16 : Addr)
  | sbcIndX (zp8 : Byte)
  | sbcZp (zp8 : Byte)
  | sbcImm (imm8 : Byte)
  | sbcAbs (abs16 : Addr)
  | sbcIndY (zp8 : Byte)
  | sbcZpX (zp8 : Byte)
  | sbcAbsY (abs16 : Addr)
  | sbcAbsX (abs16 : Addr)
  | incZp (zp8 : Byte)
  | incAbs (abs16 : Addr)
  | incZpX (zp8 : Byte)
  | incAbsX (abs16 : Addr)
  | inx
  | nop
  | beq (disp8 : Byte)
  | sed
deriving DecidableEq, Repr

end Sys2Proof
end

