-- ==== Sys2Proof/WellFormed.lean ====
section
/-! DEFINITION. Which mnemonic and which addressing form an instruction has, and which forms a mnemonic admits
(spec/40_addressing.md R119, spec/30_encoding.md R73 to R76). `admits` is written from R119's rows and from the
restrictions the spec quotes; `wellFormed` asks it of an instruction. Operand widths need no check: the
constructors' arguments have exactly the widths of R70. -/

namespace Sys2Proof

/-- The 56 mnemonics (R1, R80). -/
inductive Mnemonic where
  | brk | ora | asl | php | bpl | clc | jsr | and
  | bit | rol | plp | bmi | sec | rti | eor | lsr
  | pha | jmp | bvc | cli | rts | adc | ror | pla
  | bvs | sei | sta | sty | stx | dey | txa | bcc
  | tya | txs | ldy | lda | ldx | tay | tax | bcs
  | clv | tsx | cpy | cmp | dec | iny | dex | bne
  | cld | cpx | sbc | inc | inx | nop | beq | sed
deriving DecidableEq, Repr

/-- The addressing forms of R70: the ten source modes and the implied, relative, absolute-target and
indirect-pointer forms (R102 to R115). -/
inductive Form where
  | implied | accumulator | immediate
  | zeroPage | zeroPageX | zeroPageY | indexedIndirectX | indirectIndexedY
  | relative | absolute | absoluteX | absoluteY | absoluteTarget | indirectPointer
deriving DecidableEq, Repr

/-- The mnemonic of each instruction (spec/opcode_table.json). -/
def Instr.mnemonic : Instr → Mnemonic
  | .brk => .brk
  | .oraIndX _ | .oraZp _ | .oraImm _ | .oraAbs _ | .oraIndY _ | .oraZpX _ | .oraAbsY _ | .oraAbsX _ => .ora
  | .aslZp _ | .aslAcc | .aslAbs _ | .aslZpX _ | .aslAbsX _ => .asl
  | .php => .php
  | .bpl _ => .bpl
  | .clc => .clc
  | .jsr _ => .jsr
  | .andIndX _ | .andZp _ | .andImm _ | .andAbs _ | .andIndY _ | .andZpX _ | .andAbsY _ | .andAbsX _ => .and
  | .bitZp _ | .bitAbs _ => .bit
  | .rolZp _ | .rolAcc | .rolAbs _ | .rolZpX _ | .rolAbsX _ => .rol
  | .plp => .plp
  | .bmi _ => .bmi
  | .sec => .sec
  | .rti => .rti
  | .eorIndX _ | .eorZp _ | .eorImm _ | .eorAbs _ | .eorIndY _ | .eorZpX _ | .eorAbsY _ | .eorAbsX _ => .eor
  | .lsrZp _ | .lsrAcc | .lsrAbs _ | .lsrZpX _ | .lsrAbsX _ => .lsr
  | .pha => .pha
  | .jmpAbs _ | .jmpInd _ => .jmp
  | .bvc _ => .bvc
  | .cli => .cli
  | .rts => .rts
  | .adcIndX _ | .adcZp _ | .adcImm _ | .adcAbs _ | .adcIndY _ | .adcZpX _ | .adcAbsY _ | .adcAbsX _ => .adc
  | .rorZp _ | .rorAcc | .rorAbs _ | .rorZpX _ | .rorAbsX _ => .ror
  | .pla => .pla
  | .bvs _ => .bvs
  | .sei => .sei
  | .staIndX _ | .staZp _ | .staAbs _ | .staIndY _ | .staZpX _ | .staAbsY _ | .staAbsX _ => .sta
  | .styZp _ | .styAbs _ | .styZpX _ => .sty
  | .stxZp _ | .stxAbs _ | .stxZpY _ => .stx
  | .dey => .dey
  | .txa => .txa
  | .bcc _ => .bcc
  | .tya => .tya
  | .txs => .txs
  | .ldyImm _ | .ldyZp _ | .ldyAbs _ | .ldyZpX _ | .ldyAbsX _ => .ldy
  | .ldaIndX _ | .ldaZp _ | .ldaImm _ | .ldaAbs _ | .ldaIndY _ | .ldaZpX _ | .ldaAbsY _ | .ldaAbsX _ => .lda
  | .ldxImm _ | .ldxZp _ | .ldxAbs _ | .ldxZpY _ | .ldxAbsY _ => .ldx
  | .tay => .tay
  | .tax => .tax
  | .bcs _ => .bcs
  | .clv => .clv
  | .tsx => .tsx
  | .cpyImm _ | .cpyZp _ | .cpyAbs _ => .cpy
  | .cmpIndX _ | .cmpZp _ | .cmpImm _ | .cmpAbs _ | .cmpIndY _ | .cmpZpX _ | .cmpAbsY _ | .cmpAbsX _ => .cmp
  | .decZp _ | .decAbs _ | .decZpX _ | .decAbsX _ => .dec
  | .iny => .iny
  | .dex => .dex
  | .bne _ => .bne
  | .cld => .cld
  | .cpxImm _ | .cpxZp _ | .cpxAbs _ => .cpx
  | .sbcIndX _ | .sbcZp _ | .sbcImm _ | .sbcAbs _ | .sbcIndY _ | .sbcZpX _ | .sbcAbsY _ | .sbcAbsX _ => .sbc
  | .incZp _ | .incAbs _ | .incZpX _ | .incAbsX _ => .inc
  | .inx => .inx
  | .nop => .nop
  | .beq _ => .beq
  | .sed => .sed

/-- The addressing form of each instruction (spec/opcode_table.json). -/
def Instr.form : Instr → Form
  | .brk | .php | .clc | .plp | .sec | .rti | .pha | .cli
  | .rts | .pla | .sei | .dey | .txa | .tya | .txs | .tay
  | .tax | .clv | .tsx | .iny | .dex | .cld | .inx | .nop
  | .sed => .implied
  | .aslAcc | .rolAcc | .lsrAcc | .rorAcc => .accumulator
  | .oraImm _ | .andImm _ | .eorImm _ | .adcImm _ | .ldyImm _ | .ldxImm _ | .ldaImm _ | .cpyImm _
  | .cmpImm _ | .cpxImm _ | .sbcImm _ => .immediate
  | .oraZp _ | .aslZp _ | .bitZp _ | .andZp _ | .rolZp _ | .eorZp _ | .lsrZp _ | .adcZp _
  | .rorZp _ | .styZp _ | .staZp _ | .stxZp _ | .ldyZp _ | .ldaZp _ | .ldxZp _ | .cpyZp _
  | .cmpZp _ | .decZp _ | .cpxZp _ | .sbcZp _ | .incZp _ => .zeroPage
  | .oraZpX _ | .aslZpX _ | .andZpX _ | .rolZpX _ | .eorZpX _ | .lsrZpX _ | .adcZpX _ | .rorZpX _
  | .styZpX _ | .staZpX _ | .ldyZpX _ | .ldaZpX _ | .cmpZpX _ | .decZpX _ | .sbcZpX _ | .incZpX _ => .zeroPageX
  | .stxZpY _ | .ldxZpY _ => .zeroPageY
  | .oraIndX _ | .andIndX _ | .eorIndX _ | .adcIndX _ | .staIndX _ | .ldaIndX _ | .cmpIndX _ | .sbcIndX _ => .indexedIndirectX
  | .oraIndY _ | .andIndY _ | .eorIndY _ | .adcIndY _ | .staIndY _ | .ldaIndY _ | .cmpIndY _ | .sbcIndY _ => .indirectIndexedY
  | .oraAbs _ | .aslAbs _ | .bitAbs _ | .andAbs _ | .rolAbs _ | .eorAbs _ | .lsrAbs _ | .adcAbs _
  | .rorAbs _ | .styAbs _ | .staAbs _ | .stxAbs _ | .ldyAbs _ | .ldaAbs _ | .ldxAbs _ | .cpyAbs _
  | .cmpAbs _ | .decAbs _ | .cpxAbs _ | .sbcAbs _ | .incAbs _ => .absolute
  | .oraAbsX _ | .aslAbsX _ | .andAbsX _ | .rolAbsX _ | .eorAbsX _ | .lsrAbsX _ | .adcAbsX _ | .rorAbsX _
  | .staAbsX _ | .ldyAbsX _ | .ldaAbsX _ | .cmpAbsX _ | .decAbsX _ | .sbcAbsX _ | .incAbsX _ => .absoluteX
  | .oraAbsY _ | .andAbsY _ | .eorAbsY _ | .adcAbsY _ | .staAbsY _ | .ldaAbsY _ | .ldxAbsY _ | .cmpAbsY _
  | .sbcAbsY _ => .absoluteY
  | .bpl _ | .bmi _ | .bvc _ | .bvs _ | .bcc _ | .bcs _ | .bne _ | .beq _ => .relative
  | .jsr _ | .jmpAbs _ => .absoluteTarget
  | .jmpInd _ => .indirectPointer

/-- R119: the forms each operand-taking mnemonic admits; a branch takes the relative form alone (R79, R113)
and every other mnemonic the implied form alone (R112). -/
def admits : Mnemonic → List Form
  | .lda | .ora | .and | .eor | .adc | .sbc | .cmp =>
    [.indexedIndirectX, .zeroPage, .immediate, .absolute, .indirectIndexedY, .zeroPageX, .absoluteY, .absoluteX]
  | .ldx =>
    [.immediate, .zeroPage, .absolute, .zeroPageY, .absoluteY]
  | .ldy =>
    [.immediate, .zeroPage, .absolute, .zeroPageX, .absoluteX]
  | .sta =>
    [.indexedIndirectX, .zeroPage, .absolute, .indirectIndexedY, .zeroPageX, .absoluteY, .absoluteX]
  | .stx =>
    [.zeroPage, .absolute, .zeroPageY]
  | .sty =>
    [.zeroPage, .absolute, .zeroPageX]
  | .cpx | .cpy =>
    [.immediate, .zeroPage, .absolute]
  | .bit =>
    [.zeroPage, .absolute]
  | .asl | .lsr | .rol | .ror =>
    [.zeroPage, .accumulator, .absolute, .zeroPageX, .absoluteX]
  | .inc | .dec =>
    [.zeroPage, .absolute, .zeroPageX, .absoluteX]
  | .jmp =>
    [.absoluteTarget, .indirectPointer]
  | .jsr =>
    [.absoluteTarget]
  | .bpl | .bmi | .bvc | .bvs | .bcc | .bcs | .bne | .beq => [.relative]
  | .brk | .php | .clc | .plp | .sec | .rti | .pha | .cli
  | .rts | .pla | .sei | .dey | .txa | .tya | .txs | .tay
  | .tax | .clv | .tsx | .iny | .dex | .cld | .inx | .nop
  | .sed => [.implied]

/-- Whether a mnemonic may take a form: the decode table pairs no other (R119). -/
def pairing (m : Mnemonic) (f : Form) : Bool := (admits m).contains f

/-- An instruction is well formed when its mnemonic admits its form (R119). -/
def Instr.wellFormed (i : Instr) : Bool := pairing i.mnemonic i.form

end Sys2Proof
end

