-- ==== Sys2Proof/Decode.lean ====
section
/-! DEFINITION. The opcode decoder (spec/30_encoding.md): the 256-entry table of R80, decoding of a byte list, and
after it an encoder written from the same table. Decoding is total: an opcode the table leaves out is rejected by
name (R83), and so is a list that ends before the instruction does. The decoder reads the opcode byte alone to tell
the instruction and its length (R77, R82). -/

namespace Sys2Proof

/-- `(hi << 8) | lo` of two bytes (R7): the little-endian operand's high byte is its second (R81, R44). -/
def joinBytes (hi lo : Byte) : Addr := (hi.setWidth 16 <<< 8) ||| lo.setWidth 16

/-- Bits 7:0 of a word. -/
def lowByte (w : Addr) : Byte := w.extractLsb' 0 8

/-- Bits 15:8 of a word. -/
def highByte (w : Addr) : Byte := w.extractLsb' 8 8

/-- The operand bytes of each form (R70). -/
def operandBytes : Form → Nat
  | .implied | .accumulator => 0
  | .immediate | .zeroPage | .zeroPageX | .zeroPageY | .indexedIndirectX | .indirectIndexedY | .relative => 1
  | .absolute | .absoluteX | .absoluteY | .absoluteTarget | .indirectPointer => 2

/-- The length in bytes: the opcode byte and the form's operand bytes (R70). -/
def instrLength (i : Instr) : Nat := 1 + operandBytes i.form

/-- A cell of the decode table: `Illegal`, or an instruction that wants no, one or two operand bytes (R70, R80). -/
inductive TableCell where
  | illegal
  | bare (i : Instr)
  | oneByte (mk : Byte → Instr)
  | twoBytes (mk : Addr → Instr)

/-- `Decode(op)`: the 256-entry table of R80, row by row; a cell marked "—" there is `illegal` (R83). -/
def opcodeTable (op : Byte) : TableCell :=
  match op with
  -- row 0_
  | 0x00 => .bare .brk
  | 0x01 => .oneByte .oraIndX
  | 0x05 => .oneByte .oraZp
  | 0x06 => .oneByte .aslZp
  | 0x08 => .bare .php
  | 0x09 => .oneByte .oraImm
  | 0x0A => .bare .aslAcc
  | 0x0D => .twoBytes .oraAbs
  | 0x0E => .twoBytes .aslAbs
  -- row 1_
  | 0x10 => .oneByte .bpl
  | 0x11 => .oneByte .oraIndY
  | 0x15 => .oneByte .oraZpX
  | 0x16 => .oneByte .aslZpX
  | 0x18 => .bare .clc
  | 0x19 => .twoBytes .oraAbsY
  | 0x1D => .twoBytes .oraAbsX
  | 0x1E => .twoBytes .aslAbsX
  -- row 2_
  | 0x20 => .twoBytes .jsr
  | 0x21 => .oneByte .andIndX
  | 0x24 => .oneByte .bitZp
  | 0x25 => .oneByte .andZp
  | 0x26 => .oneByte .rolZp
  | 0x28 => .bare .plp
  | 0x29 => .oneByte .andImm
  | 0x2A => .bare .rolAcc
  | 0x2C => .twoBytes .bitAbs
  | 0x2D => .twoBytes .andAbs
  | 0x2E => .twoBytes .rolAbs
  -- row 3_
  | 0x30 => .oneByte .bmi
  | 0x31 => .oneByte .andIndY
  | 0x35 => .oneByte .andZpX
  | 0x36 => .oneByte .rolZpX
  | 0x38 => .bare .sec
  | 0x39 => .twoBytes .andAbsY
  | 0x3D => .twoBytes .andAbsX
  | 0x3E => .twoBytes .rolAbsX
  -- row 4_
  | 0x40 => .bare .rti
  | 0x41 => .oneByte .eorIndX
  | 0x45 => .oneByte .eorZp
  | 0x46 => .oneByte .lsrZp
  | 0x48 => .bare .pha
  | 0x49 => .oneByte .eorImm
  | 0x4A => .bare .lsrAcc
  | 0x4C => .twoBytes .jmpAbs
  | 0x4D => .twoBytes .eorAbs
  | 0x4E => .twoBytes .lsrAbs
  -- row 5_
  | 0x50 => .oneByte .bvc
  | 0x51 => .oneByte .eorIndY
  | 0x55 => .oneByte .eorZpX
  | 0x56 => .oneByte .lsrZpX
  | 0x58 => .bare .cli
  | 0x59 => .twoBytes .eorAbsY
  | 0x5D => .twoBytes .eorAbsX
  | 0x5E => .twoBytes .lsrAbsX
  -- row 6_
  | 0x60 => .bare .rts
  | 0x61 => .oneByte .adcIndX
  | 0x65 => .oneByte .adcZp
  | 0x66 => .oneByte .rorZp
  | 0x68 => .bare .pla
  | 0x69 => .oneByte .adcImm
  | 0x6A => .bare .rorAcc
  | 0x6C => .twoBytes .jmpInd
  | 0x6D => .twoBytes .adcAbs
  | 0x6E => .twoBytes .rorAbs
  -- row 7_
  | 0x70 => .oneByte .bvs
  | 0x71 => .oneByte .adcIndY
  | 0x75 => .oneByte .adcZpX
  | 0x76 => .oneByte .rorZpX
  | 0x78 => .bare .sei
  | 0x79 => .twoBytes .adcAbsY
  | 0x7D => .twoBytes .adcAbsX
  | 0x7E => .twoBytes .rorAbsX
  -- row 8_
  | 0x81 => .oneByte .staIndX
  | 0x84 => .oneByte .styZp
  | 0x85 => .oneByte .staZp
  | 0x86 => .oneByte .stxZp
  | 0x88 => .bare .dey
  | 0x8A => .bare .txa
  | 0x8C => .twoBytes .styAbs
  | 0x8D => .twoBytes .staAbs
  | 0x8E => .twoBytes .stxAbs
  -- row 9_
  | 0x90 => .oneByte .bcc
  | 0x91 => .oneByte .staIndY
  | 0x94 => .oneByte .styZpX
  | 0x95 => .oneByte .staZpX
  | 0x96 => .oneByte .stxZpY
  | 0x98 => .bare .tya
  | 0x99 => .twoBytes .staAbsY
  | 0x9A => .bare .txs
  | 0x9D => .twoBytes .staAbsX
  -- row A_
  | 0xA0 => .oneByte .ldyImm
  | 0xA1 => .oneByte .ldaIndX
  | 0xA2 => .oneByte .ldxImm
  | 0xA4 => .oneByte .ldyZp
  | 0xA5 => .oneByte .ldaZp
  | 0xA6 => .oneByte .ldxZp
  | 0xA8 => .bare .tay
  | 0xA9 => .oneByte .ldaImm
  | 0xAA => .bare .tax
  | 0xAC => .twoBytes .ldyAbs
  | 0xAD => .twoBytes .ldaAbs
  | 0xAE => .twoBytes .ldxAbs
  -- row B_
  | 0xB0 => .oneByte .bcs
  | 0xB1 => .oneByte .ldaIndY
  | 0xB4 => .oneByte .ldyZpX
  | 0xB5 => .oneByte .ldaZpX
  | 0xB6 => .oneByte .ldxZpY
  | 0xB8 => .bare .clv
  | 0xB9 => .twoBytes .ldaAbsY
  | 0xBA => .bare .tsx
  | 0xBC => .twoBytes .ldyAbsX
  | 0xBD => .twoBytes .ldaAbsX
  | 0xBE => .twoBytes .ldxAbsY
  -- row C_
  | 0xC0 => .oneByte .cpyImm
  | 0xC1 => .oneByte .cmpIndX
  | 0xC4 => .oneByte .cpyZp
  | 0xC5 => .oneByte .cmpZp
  | 0xC6 => .oneByte .decZp
  | 0xC8 => .bare .iny
  | 0xC9 => .oneByte .cmpImm
  | 0xCA => .bare .dex
  | 0xCC => .twoBytes .cpyAbs
  | 0xCD => .twoBytes .cmpAbs
  | 0xCE => .twoBytes .decAbs
  -- row D_
  | 0xD0 => .oneByte .bne
  | 0xD1 => .oneByte .cmpIndY
  | 0xD5 => .oneByte .cmpZpX
  | 0xD6 => .oneByte .decZpX
  | 0xD8 => .bare .cld
  | 0xD9 => .twoBytes .cmpAbsY
  | 0xDD => .twoBytes .cmpAbsX
  | 0xDE => .twoBytes .decAbsX
  -- row E_
  | 0xE0 => .oneByte .cpxImm
  | 0xE1 => .oneByte .sbcIndX
  | 0xE4 => .oneByte .cpxZp
  | 0xE5 => .oneByte .sbcZp
  | 0xE6 => .oneByte .incZp
  | 0xE8 => .bare .inx
  | 0xE9 => .oneByte .sbcImm
  | 0xEA => .bare .nop
  | 0xEC => .twoBytes .cpxAbs
  | 0xED => .twoBytes .sbcAbs
  | 0xEE => .twoBytes .incAbs
  -- row F_
  | 0xF0 => .oneByte .beq
  | 0xF1 => .oneByte .sbcIndY
  | 0xF5 => .oneByte .sbcZpX
  | 0xF6 => .oneByte .incZpX
  | 0xF8 => .bare .sed
  | 0xF9 => .twoBytes .sbcAbsY
  | 0xFD => .twoBytes .sbcAbsX
  | 0xFE => .twoBytes .incAbsX
  | _ => .illegal

/-- The mnemonic and form in an opcode's cell of the table, `none` where the cell is illegal (R80). -/
def opcodeRow (op : Byte) : Option (Mnemonic × Form) :=
  match opcodeTable op with
  | .illegal => none
  | .bare i => some (i.mnemonic, i.form)
  | .oneByte mk => some ((mk 0).mnemonic, (mk 0).form)
  | .twoBytes mk => some ((mk 0).mnemonic, (mk 0).form)

/-- How many operand bytes follow an opcode, told from the opcode alone (R70, R82); `none` where it is illegal. -/
def operandCount (op : Byte) : Option Nat :=
  match opcodeTable op with
  | .illegal => none
  | .bare _ => some 0
  | .oneByte _ => some 1
  | .twoBytes _ => some 2

/-- Why a byte list is not an instruction: an opcode of R83, or too few bytes for the opcode's length. -/
inductive DecodeReject where
  | illegalOpcode (op : Byte)
  | tooShort
deriving DecidableEq, Repr

/-- Decoding a byte list, opcode first: the instruction and the bytes after it (R70, R80, R81). -/
def decode : List Byte → Except DecodeReject (Instr × List Byte)
  | [] => .error .tooShort
  | op :: rest =>
    match opcodeTable op, rest with
    | .illegal, _ => .error (.illegalOpcode op)
    | .bare i, rest => .ok (i, rest)
    | .oneByte mk, b :: rest => .ok (mk b, rest)
    | .twoBytes mk, lo :: hi :: rest => .ok (mk (joinBytes hi lo), rest)
    | _, _ => .error .tooShort

/-- A 16-bit operand's two bytes, low byte first (R81). -/
def wordBytes (w : Addr) : List Byte := [lowByte w, highByte w]

/-- Encoding: the opcode byte the table gives and the operand bytes (R70, R80, R81). -/
def encode : Instr → List Byte
  | .brk => [0x00]
  | .oraIndX b => [0x01, b]
  | .oraZp b => [0x05, b]
  | .oraImm b => [0x09, b]
  | .oraAbs w => 0x0D :: wordBytes w
  | .oraIndY b => [0x11, b]
  | .oraZpX b => [0x15, b]
  | .oraAbsY w => 0x19 :: wordBytes w
  | .oraAbsX w => 0x1D :: wordBytes w
  | .aslZp b => [0x06, b]
  | .aslAcc => [0x0A]
  | .aslAbs w => 0x0E :: wordBytes w
  | .aslZpX b => [0x16, b]
  | .aslAbsX w => 0x1E :: wordBytes w
  | .php => [0x08]
  | .bpl b => [0x10, b]
  | .clc => [0x18]
  | .jsr w => 0x20 :: wordBytes w
  | .andIndX b => [0x21, b]
  | .andZp b => [0x25, b]
  | .andImm b => [0x29, b]
  | .andAbs w => 0x2D :: wordBytes w
  | .andIndY b => [0x31, b]
  | .andZpX b => [0x35, b]
  | .andAbsY w => 0x39 :: wordBytes w
  | .andAbsX w => 0x3D :: wordBytes w
  | .bitZp b => [0x24, b]
  | .bitAbs w => 0x2C :: wordBytes w
  | .rolZp b => [0x26, b]
  | .rolAcc => [0x2A]
  | .rolAbs w => 0x2E :: wordBytes w
  | .rolZpX b => [0x36, b]
  | .rolAbsX w => 0x3E :: wordBytes w
  | .plp => [0x28]
  | .bmi b => [0x30, b]
  | .sec => [0x38]
  | .rti => [0x40]
  | .eorIndX b => [0x41, b]
  | .eorZp b => [0x45, b]
  | .eorImm b => [0x49, b]
  | .eorAbs w => 0x4D :: wordBytes w
  | .eorIndY b => [0x51, b]
  | .eorZpX b => [0x55, b]
  | .eorAbsY w => 0x59 :: wordBytes w
  | .eorAbsX w => 0x5D :: wordBytes w
  | .lsrZp b => [0x46, b]
  | .lsrAcc => [0x4A]
  | .lsrAbs w => 0x4E :: wordBytes w
  | .lsrZpX b => [0x56, b]
  | .lsrAbsX w => 0x5E :: wordBytes w
  | .pha => [0x48]
  | .jmpAbs w => 0x4C :: wordBytes w
  | .jmpInd w => 0x6C :: wordBytes w
  | .bvc b => [0x50, b]
  | .cli => [0x58]
  | .rts => [0x60]
  | .adcIndX b => [0x61, b]
  | .adcZp b => [0x65, b]
  | .adcImm b => [0x69, b]
  | .adcAbs w => 0x6D :: wordBytes w
  | .adcIndY b => [0x71, b]
  | .adcZpX b => [0x75, b]
  | .adcAbsY w => 0x79 :: wordBytes w
  | .adcAbsX w => 0x7D :: wordBytes w
  | .rorZp b => [0x66, b]
  | .rorAcc => [0x6A]
  | .rorAbs w => 0x6E :: wordBytes w
  | .rorZpX b => [0x76, b]
  | .rorAbsX w => 0x7E :: wordBytes w
  | .pla => [0x68]
  | .bvs b => [0x70, b]
  | .sei => [0x78]
  | .staIndX b => [0x81, b]
  | .staZp b => [0x85, b]
  | .staAbs w => 0x8D :: wordBytes w
  | .staIndY b => [0x91, b]
  | .staZpX b => [0x95, b]
  | .staAbsY w => 0x99 :: wordBytes w
  | .staAbsX w => 0x9D :: wordBytes w
  | .styZp b => [0x84, b]
  | .styAbs w => 0x8C :: wordBytes w
  | .styZpX b => [0x94, b]
  | .stxZp b => [0x86, b]
  | .stxAbs w => 0x8E :: wordBytes w
  | .stxZpY b => [0x96, b]
  | .dey => [0x88]
  | .txa => [0x8A]
  | .bcc b => [0x90, b]
  | .tya => [0x98]
  | .txs => [0x9A]
  | .ldyImm b => [0xA0, b]
  | .ldyZp b => [0xA4, b]
  | .ldyAbs w => 0xAC :: wordBytes w
  | .ldyZpX b => [0xB4, b]
  | .ldyAbsX w => 0xBC :: wordBytes w
  | .ldaIndX b => [0xA1, b]
  | .ldaZp b => [0xA5, b]
  | .ldaImm b => [0xA9, b]
  | .ldaAbs w => 0xAD :: wordBytes w
  | .ldaIndY b => [0xB1, b]
  | .ldaZpX b => [0xB5, b]
  | .ldaAbsY w => 0xB9 :: wordBytes w
  | .ldaAbsX w => 0xBD :: wordBytes w
  | .ldxImm b => [0xA2, b]
  | .ldxZp b => [0xA6, b]
  | .ldxAbs w => 0xAE :: wordBytes w
  | .ldxZpY b => [0xB6, b]
  | .ldxAbsY w => 0xBE :: wordBytes w
  | .tay => [0xA8]
  | .tax => [0xAA]
  | .bcs b => [0xB0, b]
  | .clv => [0xB8]
  | .tsx => [0xBA]
  | .cpyImm b => [0xC0, b]
  | .cpyZp b => [0xC4, b]
  | .cpyAbs w => 0xCC :: wordBytes w
  | .cmpIndX b => [0xC1, b]
  | .cmpZp b => [0xC5, b]
  | .cmpImm b => [0xC9, b]
  | .cmpAbs w => 0xCD :: wordBytes w
  | .cmpIndY b => [0xD1, b]
  | .cmpZpX b => [0xD5, b]
  | .cmpAbsY w => 0xD9 :: wordBytes w
  | .cmpAbsX w => 0xDD :: wordBytes w
  | .decZp b => [0xC6, b]
  | .decAbs w => 0xCE :: wordBytes w
  | .decZpX b => [0xD6, b]
  | .decAbsX w => 0xDE :: wordBytes w
  | .iny => [0xC8]
  | .dex => [0xCA]
  | .bne b => [0xD0, b]
  | .cld => [0xD8]
  | .cpxImm b => [0xE0, b]
  | .cpxZp b => [0xE4, b]
  | .cpxAbs w => 0xEC :: wordBytes w
  | .sbcIndX b => [0xE1, b]
  | .sbcZp b => [0xE5, b]
  | .sbcImm b => [0xE9, b]
  | .sbcAbs w => 0xED :: wordBytes w
  | .sbcIndY b => [0xF1, b]
  | .sbcZpX b => [0xF5, b]
  | .sbcAbsY w => 0xF9 :: wordBytes w
  | .sbcAbsX w => 0xFD :: wordBytes w
  | .incZp b => [0xE6, b]
  | .incAbs w => 0xEE :: wordBytes w
  | .incZpX b => [0xF6, b]
  | .incAbsX w => 0xFE :: wordBytes w
  | .inx => [0xE8]
  | .nop => [0xEA]
  | .beq b => [0xF0, b]
  | .sed => [0xF8]

/-- The three bytes, as many as the longest instruction has (R70), of a number whose bit 0 is the least significant bit
of the opcode byte: each byte of the instruction stands 8 bits further up, and the bits from `nbits` up are zero. -/
def tableBytes (nbits w : Nat) : List Byte :=
  let v := w % 2 ^ nbits
  [BitVec.ofNat 8 v, BitVec.ofNat 8 (v / 256), BitVec.ofNat 8 (v / 65536)]

/-- The instruction the decoder reads from a number laid out as `tableBytes` says. -/
def decodeTableWord (nbits w : Nat) : Option Instr :=
  match decode (tableBytes nbits w) with
  | .ok (i, _) => some i
  | .error _ => none

end Sys2Proof
end

