-- ==== Sys2Proof/Config.lean ====
section
/-! DEFINITION. The implementation parameters of spec/00_scope.md R6 as plain data, and the one free value of the
machine: what an external device answers to a read (spec/20_memory.md R50, R51). A state carries its parameters,
so every statement about every state holds for every value of them (DESIGN CHOICE, log entry 1, safe). -/

namespace Sys2Proof

/-- An array of bytes as (index, byte) pairs; an index that is not listed reads as `unlistedByte`. Its canonical form is
`Memory.wf`. -/
abbrev Memory := List Host.Cell

/-- `PRG_ROM_SIZE`: 16384 or 32768 bytes (R6, R53). -/
inductive PrgRomSize where
  | kib16 | kib32
deriving DecidableEq, Repr

/-- `PRG_RAM_SIZE`: 2048 or 4096 bytes (R6, R53). -/
inductive PrgRamSize where
  | kib2 | kib4
deriving DecidableEq, Repr

/-- A register of an external device, as the arbiter numbers it: the picture unit's 8 (R50) and the audio/IO unit's
32 (R51). -/
inductive DeviceReg where
  | picture (r : BitVec 3)
  | audioIo (r : BitVec 5)
deriving DecidableEq, Repr

/-- The named parameters of R6 that are OPEN, or have a default only. The fixed values of R6 are no fields. -/
structure Config where
  /-- `RESET_A` -/
  resetA : Byte
  /-- `RESET_X` -/
  resetX : Byte
  /-- `RESET_Y` -/
  resetY : Byte
  /-- `RESET_C` -/
  resetC : Bool
  /-- `RESET_Z` -/
  resetZ : Bool
  /-- `RESET_D` -/
  resetD : Bool
  /-- `RESET_V` -/
  resetV : Bool
  /-- `RESET_N` -/
  resetN : Bool
  /-- `RAM_INIT` -/
  ramInit : Memory
  /-- `CART_PRESENT` -/
  cartPresent : Bool
  /-- `PRG_ROM_SIZE` -/
  prgRomSize : PrgRomSize
  /-- `PRG_ROM`, the constant image -/
  prgRom : Memory
  /-- `PRG_RAM_SIZE` -/
  prgRamSize : PrgRamSize
  /-- `PRG_RAM_INIT` -/
  prgRamInit : Memory
  /-- `STRICT_UNMAPPED` -/
  strictUnmapped : Bool
  /-- `HAS_IRQ_NMI` -/
  hasIrqNmi : Bool
deriving DecidableEq, Repr

/-- The parameters `State.reset` is built from: R6's defaults for `STRICT_UNMAPPED` and `HAS_IRQ_NMI`, and for the OPEN
ones the values the spec's test vectors take (spec/95_test_vectors.md sections 2 and 4): zeros and no cartridge.
DESIGN CHOICE (log entry 2), unsafe for a claim about `State.reset` that rests on one of them. -/
def Config.standard : Config where
  resetA := 0
  resetX := 0
  resetY := 0
  resetC := false
  resetZ := false
  resetD := false
  resetV := false
  resetN := false
  ramInit := []
  cartPresent := false
  prgRomSize := .kib32
  prgRom := []
  prgRamSize := .kib2
  prgRamInit := []
  strictUnmapped := false
  hasIrqNmi := false

/-- What an external device answers to the `n`-th device read of a run, by register: "an external draw: any 8-bit value,
unconstrained by the block" (R50, R51). It has no body: a claim about it holds for every answer (log entry 4, safe). -/
opaque Config.deviceAnswer : Nat → DeviceReg → Byte

end Sys2Proof
end

