-- ==== Sys2Proof/Machine/State.lean ====
section
/-! DEFINITION. The state of the block as plain data (spec/10_state.md, spec/20_memory.md R49, R53, spec/60_exceptions.md
R312), the reasons a step stops, and the state right after power-on. -/

namespace Sys2Proof.Machine

/-- The status register P: six independent flags (R25, R28). Bits 4 and 5 of P are not stored (R26). -/
structure Status where
  /-- bit 0, Carry -/
  c : Bool
  /-- bit 1, Zero -/
  z : Bool
  /-- bit 2, InterruptDisable -/
  i : Bool
  /-- bit 3, Decimal: stored, and read by no arithmetic (R29) -/
  d : Bool
  /-- bit 6, Overflow -/
  v : Bool
  /-- bit 7, Negative -/
  n : Bool
deriving DecidableEq, Repr

/-- The direction of a bus transaction, `dir` of R54. -/
inductive Dir where
  | read | write
deriving DecidableEq, Repr

/-- The content of a full fault latch (R32), and the reason a step stops. -/
inductive Fault where
  /-- `IllegalOpcode(op, pc0)` (R301). Raised by the fetch of a step whose opcode byte decodes as illegal; every later step
  stops with it (R305). Safe: the spec's own fault. -/
  | illegalOpcode (op : Byte) (pc0 : Addr)
  /-- `UnmappedMemoryAccess(addr, dir)` (R306). Raised by the arbiter, under the strict policy only, at a transaction with an
  unclaimed address; every later step stops with it (R305). Safe: the spec's own fault. -/
  | unmappedMemoryAccess (addr : Addr) (dir : Dir)
deriving DecidableEq, Repr

/-- Why the model gives an instruction no meaning. -/
inductive Refusal where
  /-- An arm of `exec` with no meaning yet. No arm raises it now: every instruction has its meaning. Safe. -/
  | notModelled (mnemonic : String)
deriving DecidableEq, Repr

/-- One byte-wide transaction on the block's bus port (R41). -/
inductive BusEvent where
  | read (addr : Addr) (v : Byte)
  | write (addr : Addr) (v : Byte)
deriving DecidableEq, Repr

/-- Everything the spec gives the machine, the parameters it was built with, and two records of the model's own (`draws`
and `bus`). -/
structure State where
  /-- the accumulator A (R20) -/
  a : Byte
  /-- the index register X (R21) -/
  x : Byte
  /-- the index register Y (R21) -/
  y : Byte
  /-- the stack pointer S (R22) -/
  sp : Byte
  /-- the program counter PC (R23) -/
  pc : Addr
  /-- the status register P (R25) -/
  p : Status
  /-- the fault latch (R32); with it the status output of R33 (b) -/
  fault : Option Fault
  /-- the internal RAM, indexes 0 to 2047 (R49) -/
  ram : Memory
  /-- the cartridge's PRG RAM, indexes below `PRG_RAM_SIZE` (R53) -/
  prgRam : Memory
  /-- the level of the `irq` input (R312) -/
  irq : Bool
  /-- the level of the `nmi` input, whose inactive-to-active transitions are the edges of R312 -/
  nmi : Bool
  /-- `nmi_pending` (R312) -/
  nmiPending : Bool
  /-- the parameters of R6; no step writes them (log entry 1) -/
  cfg : Config
  /-- how many device answers have been used: the model's own counter (log entry 4) -/
  draws : Nat
  /-- the bus transactions of the latest request, in the order issued (R33 (c), R47): the model's own record (log entry 5) -/
  bus : List BusEvent
deriving DecidableEq, Repr

/-- The block after power-on (R331, R330) with the parameters `Config.standard`: S = 0xFD and I = 1 (R36), no fault, and
PC as the vector at 0xFFFC reads with no cartridge, 0x0000 (R332). The two vector reads are its bus transactions. -/
def State.reset : State where
  a := 0x00
  x := 0x00
  y := 0x00
  sp := 0xFD
  pc := 0x0000
  p := { c := false, z := false, i := true, d := false, v := false, n := false }
  fault := none
  ram := []
  prgRam := []
  irq := false
  nmi := false
  nmiPending := false
  cfg := Config.standard
  draws := 0
  bus := [.read 0xFFFC 0x00, .read 0xFFFD 0x00]

end Sys2Proof.Machine
end

