-- ==== Sys2Proof/Machine/Flags.lean ====
section
/-! DEFINITION. The status byte and every flag computation: spec/10_state.md R26, R27, R34, and the results and flags of
spec/42_alu.md and spec/43_rmw.md. All arithmetic is binary: no definition here reads the Decimal flag (R29). -/

namespace Sys2Proof.Machine

/-- `b2i` as a byte (R8). -/
def bitByte (b : Bool) : Byte := if b then 1 else 0

/-- Bit 7 of a byte. -/
def bit7 (v : Byte) : Bool := v.getLsbD 7

/-- `PByte(b4)`: P read as a byte, bit 5 as 1 and bit 4 as given (R26). -/
def statusByte (p : Status) (b4 : Bool) : Byte :=
  (bitByte p.n <<< 7) ||| (bitByte p.v <<< 6) ||| (bitByte true <<< 5) ||| (bitByte b4 <<< 4) |||
    (bitByte p.d <<< 3) ||| (bitByte p.i <<< 2) ||| (bitByte p.z <<< 1) ||| bitByte p.c

/-- `SetP(b)`: the six flags from bits 0 to 3, 6 and 7; bits 4 and 5 are discarded (R27). -/
def statusOfByte (b : Byte) : Status where
  c := b.getLsbD 0
  z := b.getLsbD 1
  i := b.getLsbD 2
  d := b.getLsbD 3
  v := b.getLsbD 6
  n := b.getLsbD 7

/-- `SetZN(v)` (R34). -/
def setZN (v : Byte) (p : Status) : Status := { p with z := v == 0, n := bit7 v }

/-- `A + m + b2i(C)` as an unbounded number (R153). -/
def addSum (a m : Byte) (c : Bool) : Nat := a.toNat + m.toNat + c.toNat

/-- The 8-bit sum of ADC (R153). -/
def addResult (a m : Byte) (c : Bool) : Byte := BitVec.ofNat 8 (addSum a m c)

/-- C, V, Z and N of ADC (R153). -/
def addFlags (a m : Byte) (p : Status) : Status :=
  setZN (addResult a m p.c)
    { p with
      c := decide (255 < addSum a m p.c)
      v := (bit7 a == bit7 m) && (bit7 (addResult a m p.c) != bit7 a) }

/-- C, Z and N of a compare of register `r` with `m`: N is bit 7 of the difference (R155 to R157). -/
def compareFlags (r m : Byte) (p : Status) : Status :=
  { p with c := decide (m.toNat ≤ r.toNat), z := r == m, n := bit7 (r - m) }

/-- Z, V and N of BIT: Z from `A & m`, V and N from `m` itself (R158). -/
def bitTestFlags (a m : Byte) (p : Status) : Status :=
  { p with z := (a &&& m) == 0, v := m.getLsbD 6, n := bit7 m }

/-- The new value of ASL (R181). -/
def aslResult (v : Byte) (_c : Bool) : Byte := v <<< 1

/-- The new value of LSR (R182). -/
def lsrResult (v : Byte) (_c : Bool) : Byte := v >>> 1

/-- The new value of ROL, the old Carry in bit 0 (R183). -/
def rolResult (v : Byte) (c : Bool) : Byte := (v <<< 1) ||| bitByte c

/-- The new value of ROR, the old Carry in bit 7 (R184). -/
def rorResult (v : Byte) (c : Bool) : Byte := (v >>> 1) ||| (bitByte c <<< 7)

/-- The bit ASL and ROL shift out into Carry (R181, R183). -/
def carryFromTop (v : Byte) (_c : Bool) : Bool := bit7 v

/-- The bit LSR and ROR shift out into Carry (R182, R184). -/
def carryFromBottom (v : Byte) (_c : Bool) : Bool := v.getLsbD 0

/-- The new value of INC (R185). -/
def incResult (v : Byte) (_c : Bool) : Byte := v + 1

/-- The new value of DEC (R186). -/
def decResult (v : Byte) (_c : Bool) : Byte := v - 1

/-- INC and DEC leave Carry as it was (R185, R186). -/
def carryKept (_v : Byte) (c : Bool) : Bool := c

end Sys2Proof.Machine
end

