-- ==== Sys2Proof/Machine/Ops.lean ====
section
/-! DEFINITION. The named operations: byte arrays, the memory-bus arbiter (spec/20_memory.md), 16-bit reads, the stack
engine, entering a handler and returning from one (spec/44_control.md R204, R205, spec/60_exceptions.md R315), the
fault latch (R302, R306), reset and power-on (spec/70_reset_and_hazards.md R330 to R332), and the interrupt inputs. -/

namespace Sys2Proof

/-- What an index that is not listed reads as: 0x00. DESIGN CHOICE (log entry 3): the spec leaves `RAM_INIT` and
`PRG_RAM_INIT` OPEN (R6); every other content is a list, so this is unsafe only for a claim about `State.reset`. -/
def unlistedByte : Byte := 0x00

/-- The byte at an index. -/
def Memory.read : Memory → Nat → Byte
  | [], _ => unlistedByte
  | (j, v) :: m, k => if j = k then v else Memory.read m k

/-- The array without the pairs of an index. -/
def Memory.erase (m : Memory) (k : Nat) : Memory := m.filter fun cell => cell.1 != k

/-- The pair put before the first pair with a higher index. -/
def Memory.insert (k : Nat) (v : Byte) : Memory → Memory
  | [] => [(k, v)]
  | (j, w) :: m => if k < j then (k, v) :: (j, w) :: m else (j, w) :: Memory.insert k v m

/-- The array with a byte written at an index. Writing what an unlisted index reads as removes the pair, so equal contents
are equal lists. -/
def Memory.write (m : Memory) (k : Nat) (v : Byte) : Memory :=
  if v = unlistedByte then m.erase k else Memory.insert k v (m.erase k)

/-- Indexes strictly rising. -/
def Memory.sorted : Memory → Bool
  | [] => true
  | [_] => true
  | (j, _) :: (k, w) :: m => decide (j < k) && Memory.sorted ((k, w) :: m)

/-- The canonical form: indexes strictly rising, and no pair that says what an unlisted index reads as anyway. -/
def Memory.wf (m : Memory) : Bool := m.sorted && m.all fun cell => cell.2 != unlistedByte

/-- Every index lies below a size. -/
def Memory.below (size : Nat) (m : Memory) : Bool := m.all fun cell => decide (cell.1 < size)

/-- Zero extension of a byte to an address, `zext_16` (R8). -/
def zext16 (v : Byte) : Addr := v.setWidth 16

/-- Two's-complement sign extension of a byte to an address, `sext_16` (R8). -/
def sext16 (v : Byte) : Addr := v.signExtend 16

namespace Machine

/-! ### The arbiter (R48 to R54) -/

/-- The size of the internal RAM in bytes (R49). -/
def ramBytes : Nat := 2048

/-- `PRG_ROM_SIZE` in bytes (R53). -/
def prgRomBytes : PrgRomSize → Nat
  | .kib16 => 16384
  | .kib32 => 32768

/-- `PRG_RAM_SIZE` in bytes (R53). -/
def prgRamBytes : PrgRamSize → Nat
  | .kib2 => 2048
  | .kib4 => 4096

/-- Where the arbiter sends an address. `unclaimed` is R54's set: the cartridge space with no cartridge, and 0x4020 to
0x5FFF with NROM. -/
inductive Target where
  | ram (k : Nat)
  | device (r : DeviceReg)
  | unclaimed
  | prgRam (k : Nat)
  | prgRom (k : Nat)
deriving DecidableEq, Repr

/-- The CPU memory map (R48): RAM mirrored every 0x0800 (R49), the picture unit's registers mirrored every 8 (R50), the
audio/IO registers (R51), and the cartridge's PRG RAM and PRG ROM modulo their sizes (R52, R53). -/
def route (c : Config) (addr : Addr) : Target :=
  if addr < 0x2000 then .ram (addr.toNat % ramBytes)
  else if addr < 0x4000 then .device (.picture (addr.extractLsb' 0 3))
  else if addr < 0x4020 then .device (.audioIo (addr.extractLsb' 0 5))
  else if !c.cartPresent then .unclaimed
  else if addr < 0x6000 then .unclaimed
  else if addr < 0x8000 then .prgRam ((addr.toNat - 0x6000) % prgRamBytes c.prgRamSize)
  else .prgRom ((addr.toNat - 0x8000) % prgRomBytes c.prgRomSize)

/-- A computation that issues bus transactions and may raise a fault; the state at the fault is kept, since writes already
issued stay (R306). -/
abbrev Bus (α : Type) := EStateM Fault State α

/-- A transaction recorded as issued (R47). -/
def State.issue (s : State) (e : BusEvent) : State := { s with bus := s.bus ++ [e] }

/-- `MemRead(addr, 1)`: one read transaction (R41, R47). RAM (R49), PRG RAM and PRG ROM (R53) answer their byte and do not
change (R46); a device answers a free value (R50, R51); an unclaimed address answers 0x00 (R52, R53), or raises under the
strict policy, the transaction not performed (R54, R306). -/
def memRead (addr : Addr) : Bus Byte := fun s =>
  match route s.cfg addr with
  | .ram k => .ok (s.ram.read k) (s.issue (.read addr (s.ram.read k)))
  | .device r =>
    .ok (Config.deviceAnswer s.draws r)
      ({ s with draws := s.draws + 1 }.issue (.read addr (Config.deviceAnswer s.draws r)))
  | .unclaimed =>
    if s.cfg.strictUnmapped then .error (.unmappedMemoryAccess addr .read) s
    else .ok 0x00 (s.issue (.read addr 0x00))
  | .prgRam k => .ok (s.prgRam.read k) (s.issue (.read addr (s.prgRam.read k)))
  | .prgRom k => .ok (s.cfg.prgRom.read k) (s.issue (.read addr (s.cfg.prgRom.read k)))

/-- `MemWrite(addr, 1, v)`: one write transaction (R41, R47). A device receives the byte and no state of the block changes
(R50, R51); PRG ROM and unclaimed addresses ignore it (R52, R53), the latter raising under the strict policy (R54, R306). -/
def memWrite (addr : Addr) (v : Byte) : Bus Unit := fun s =>
  match route s.cfg addr with
  | .ram k => .ok () ({ s with ram := s.ram.write k v }.issue (.write addr v))
  | .device _ => .ok () (s.issue (.write addr v))
  | .unclaimed =>
    if s.cfg.strictUnmapped then .error (.unmappedMemoryAccess addr .write) s
    else .ok () (s.issue (.write addr v))
  | .prgRam k => .ok () ({ s with prgRam := s.prgRam.write k v }.issue (.write addr v))
  | .prgRom _ => .ok () (s.issue (.write addr v))

/-- What reaches an external device: a register asked for, or a byte given to a register (R50, R51). -/
inductive Delivery where
  | asked (r : DeviceReg)
  | given (r : DeviceReg) (v : Byte)
deriving DecidableEq, Repr

/-- What one bus transaction delivers to a device, if its address lies in a device window: a read asks for a register, a
write gives it a byte (R50, R51). -/
def delivered (c : Config) : BusEvent → Option Delivery
  | .read addr _ =>
    match route c addr with
    | .device r => some (.asked r)
    | _ => none
  | .write addr v =>
    match route c addr with
    | .device r => some (.given r v)
    | _ => none

/-- What the latest request delivered to the devices, in order (R47, R50, R51). -/
def State.deliveries (s : State) : List Delivery := s.bus.filterMap (delivered s.cfg)

/-- The byte a read of an address would answer, without a transaction (R33: the host reads memory between requests);
`none` where a device answers, or where the strict policy raises. -/
def peek (s : State) (addr : Addr) : Option Byte :=
  match route s.cfg addr with
  | .ram k => some (s.ram.read k)
  | .device _ => none
  | .unclaimed => if s.cfg.strictUnmapped then none else some 0x00
  | .prgRam k => some (s.prgRam.read k)
  | .prgRom k => some (s.cfg.prgRom.read k)

/-! ### 16-bit reads (R42 to R44) -/

/-- `Read16(addr)`: low byte first, the address of the high byte wrapping at 0xFFFF (R42). -/
def read16 (addr : Addr) : Bus Addr := do
  let lo ← memRead addr
  let hi ← memRead (addr + 1)
  pure (joinBytes hi lo)

/-- `Read16zp(p)`: a pointer that stays in the zero page, the high byte from `wrap8(p + 1)` (R43). -/
def read16zp (p : Byte) : Bus Addr := do
  let lo ← memRead (zext16 p)
  let hi ← memRead (zext16 (p + 1))
  pure (joinBytes hi lo)

/-! ### Program counter -/

/-- `PC <- target` (R9). -/
def setPc (target : Addr) : Bus Unit := modify fun s => { s with pc := target }

/-- PC past the `n` bytes of the instruction, modulo 65536 (R23, R101). -/
def advance (n : Nat) : Bus Unit := modify fun s => { s with pc := s.pc + BitVec.ofNat 16 n }

/-! ### The stack engine (R55 to R59) -/

/-- `0x0100 + S` (R22, R55). -/
def stackAddr (sp : Byte) : Addr := 0x0100 + zext16 sp

/-- `Push(v)`: write, then decrement S, wrapping silently (R56, R59). -/
def push (v : Byte) : Bus Unit := do
  memWrite (stackAddr (← get).sp) v
  modify fun s => { s with sp := s.sp - 1 }

/-- `Pull()`: increment S, wrapping silently, then read (R57, R59). -/
def pull : Bus Byte := do
  modify fun s => { s with sp := s.sp + 1 }
  memRead (stackAddr (← get).sp)

/-- `Push16(w)`: high byte first (R58). -/
def push16 (w : Addr) : Bus Unit := do
  push (highByte w)
  push (lowByte w)

/-- `Pull16()`: low byte first (R58). -/
def pull16 : Bus Addr := do
  let lo ← pull
  let hi ← pull
  pure (joinBytes hi lo)

/-! ### Entering a handler and returning (R204, R205, R309, R315) -/

/-- The reset vector (R65). -/
def resetVector : Addr := 0xFFFC

/-- The vector of BRK and IRQ (R65). -/
def irqVector : Addr := 0xFFFE

/-- The vector of NMI (R65). -/
def nmiVector : Addr := 0xFFFA

/-- The one way into a handler: push the return address and the status byte, set I after the push, and load PC from the
vector (R205 for BRK with bit 4 as 1; R315 for an interrupt with bit 4 as 0). -/
def enterHandler (returnTo : Addr) (b4 : Bool) (vector : Addr) : Bus Unit := do
  push16 returnTo
  push (statusByte (← get).p b4)
  modify fun s => { s with p := { s.p with i := true } }
  setPc (← read16 vector)

/-- The return: pull the status byte, then the address, low byte first, with nothing added (R204). -/
def returnFromHandler : Bus Unit := do
  let b ← pull
  modify fun s => { s with p := statusOfByte b }
  setPc (← pull16)

/-! ### The fault latch (R302, R305 to R308) -/

/-- The state a faulting step leaves: A, X, Y, S, P and PC as at the start `s0` of the step, what the step did to memory and
to the bus before the fault kept, and the latch set (R302, R306). -/
def latchFault (s0 : State) (f : Fault) (t : State) : State :=
  { t with a := s0.a, x := s0.x, y := s0.y, sp := s0.sp, p := s0.p, pc := s0.pc, fault := some f }

/-- The body of an instruction run as a whole: its next state, or the latched fault (R3, R306). -/
def runInstr (body : Bus Unit) (s : State) : Host.Outcome State Fault Refusal :=
  match body s with
  | .ok _ t => .next t
  | .error f t => .next (latchFault s f t)

/-- The status output of the latest request: `none` for `ok`, or the content of the fault latch (R33 (b)). -/
def status (s : State) : Option Fault := s.fault

/-! ### Interrupts of the extension (R312 to R315) -/

/-- The two interrupt requests of the extension (R312). -/
inductive Interrupt where
  | nmi | irq
deriving DecidableEq, Repr

/-- The interrupt a step takes instead of an instruction: NMI before IRQ, IRQ only with I clear, and none without the
extension (R312 to R314). -/
def acceptedInterrupt (s : State) : Option Interrupt :=
  if !s.cfg.hasIrqNmi then none
  else if s.nmiPending then some .nmi
  else if s.irq && !s.p.i then some .irq
  else none

/-- An interrupt entry, which consumes the whole step (R314, R315); taking an NMI clears `nmi_pending` (R313). -/
def takeInterrupt (k : Interrupt) (s : State) : Host.Outcome State Fault Refusal :=
  match k with
  | .nmi =>
    runInstr (do
      modify fun t => { t with nmiPending := false }
      enterHandler s.pc false nmiVector) s
  | .irq => runInstr (enterHandler s.pc false irqVector) s

/-- The `irq` input driven to a level between requests (R312). -/
def driveIrq (level : Bool) (s : State) : State := { s with irq := level }

/-- The `nmi` input driven to a level between requests: an inactive-to-active transition is latched (R312). -/
def driveNmi (level : Bool) (s : State) : State :=
  { s with nmi := level, nmiPending := s.nmiPending || (s.cfg.hasIrqNmi && level && !s.nmi) }

/-! ### Reset and power-on (R330 to R332) -/

/-- `RESET_S` (R6, R36). -/
def resetS : Byte := 0xFD

/-- The assignments of `Reset()` but for PC (R330). -/
def resetRegisters (s : State) : State :=
  { s with
    fault := none
    nmiPending := false
    sp := resetS
    a := s.cfg.resetA
    x := s.cfg.resetX
    y := s.cfg.resetY
    p := { c := s.cfg.resetC, z := s.cfg.resetZ, i := true, d := s.cfg.resetD, v := s.cfg.resetV, n := s.cfg.resetN }
    bus := [] }

/-- A `reset` request (R330): the registers, then PC from the vector; if the vector read is unclaimed under the strict
policy, PC becomes 0x0000 and the latch holds the access (R332). Neither memory changes. -/
def resetRequest (s : State) : State :=
  match read16 resetVector (resetRegisters s) with
  | .ok target t => { t with pc := target }
  | .error f t => { t with pc := 0x0000, fault := some f }

/-- Power-on: a reset of a block whose RAM holds `RAM_INIT` and whose PRG RAM holds `PRG_RAM_INIT` (R331). The interrupt
inputs are inactive until they are driven (log entry 2). -/
def powerOn (c : Config) : State :=
  resetRequest { State.reset with ram := c.ramInit, prgRam := c.prgRamInit, cfg := c }

end Machine
end Sys2Proof
end

