-- ==== Sys2Proof/Machine/Operands.lean ====
section
/-! DEFINITION. The addressing-mode resolver (spec/40_addressing.md): the source's ten modes with their operands, the
locations they yield, and reading and writing a location. The implied, relative, absolute-target and indirect-pointer
forms (R112 to R115) yield no location to read or write: their instructions take the operand itself. -/

namespace Sys2Proof.Machine

/-- The ten addressing modes with the operand bytes consumed (R102 to R111). -/
inductive Mode where
  | immediate (imm8 : Byte)
  | accumulator
  | zeroPage (zp8 : Byte)
  | zeroPageX (zp8 : Byte)
  | zeroPageY (zp8 : Byte)
  | indexedIndirectX (zp8 : Byte)
  | indirectIndexedY (zp8 : Byte)
  | absolute (abs16 : Addr)
  | absoluteX (abs16 : Addr)
  | absoluteY (abs16 : Addr)
deriving DecidableEq, Repr

/-- The locations of R100 that can be read or written. -/
inductive Loc where
  | imm (v : Byte)
  | acc
  | mem (addr : Addr)
deriving DecidableEq, Repr

/-- The length of an instruction of a mode: the opcode byte and the mode's operand bytes (R70, R102 to R111). -/
def modeLength : Mode → Nat
  | .accumulator => 1
  | .immediate _ | .zeroPage _ | .zeroPageX _ | .zeroPageY _ | .indexedIndirectX _ | .indirectIndexedY _ => 2
  | .absolute _ | .absoluteX _ | .absoluteY _ => 3

/-- The location of a mode (R102 to R111). The operand bytes are already consumed, so the only transactions here are the
pointer reads of the two indirect modes. Zero-page sums wrap modulo 256, 16-bit sums modulo 65536. -/
def resolve (m : Mode) : Bus Loc := do
  let s ← get
  match m with
  | .immediate v => pure (.imm v)
  | .accumulator => pure .acc
  | .zeroPage b => pure (.mem (zext16 b))
  | .zeroPageX b => pure (.mem (zext16 (b + s.x)))
  | .zeroPageY b => pure (.mem (zext16 (b + s.y)))
  | .indexedIndirectX b => return .mem (← read16zp (b + s.x))
  | .indirectIndexedY b => return .mem ((← read16zp b) + zext16 s.y)
  | .absolute w => pure (.mem w)
  | .absoluteX w => pure (.mem (w + zext16 s.x))
  | .absoluteY w => pure (.mem (w + zext16 s.y))

/-- `ReadLoc(loc)` (R116). -/
def readLoc : Loc → Bus Byte
  | .imm v => pure v
  | .acc => return (← get).a
  | .mem addr => memRead addr

/-- `WriteLoc(loc, v)` (R117). An immediate location is never written: no opcode pairs a writing instruction with the
Immediate mode, so that case of the function is not reached by any instruction. -/
def writeLoc (loc : Loc) (v : Byte) : Bus Unit :=
  match loc with
  | .imm _ => pure ()
  | .acc => modify fun s => { s with a := v }
  | .mem addr => memWrite addr v

/-- PC past the instruction, the location resolved, and its byte read once (R84, R116). -/
def readOperand (m : Mode) : Bus Byte := do
  advance (modeLength m)
  readLoc (← resolve m)

end Sys2Proof.Machine
end

