-- ==== Sys2Proof/Machine/Alu.lean ====
section
/-! DEFINITION. The logical, arithmetic, compare and bit-test instructions (spec/42_alu.md R150 to R158): one operation per
instruction, and one meaning for each of its opcodes. The operand is read once; arithmetic is binary (R29). -/

namespace Sys2Proof.Machine

/-- ORA: `r <- A | m; A <- r; SetZN(r)` (R150). -/
def ora (m : Mode) : Bus Unit := do
  let v ← readOperand m
  modify fun s => { s with a := s.a ||| v, p := setZN (s.a ||| v) s.p }

/-- AND: `r <- A & m; A <- r; SetZN(r)` (R151). -/
def andA (m : Mode) : Bus Unit := do
  let v ← readOperand m
  modify fun s => { s with a := s.a &&& v, p := setZN (s.a &&& v) s.p }

/-- EOR: `r <- A ^ m; A <- r; SetZN(r)` (R152). -/
def eor (m : Mode) : Bus Unit := do
  let v ← readOperand m
  modify fun s => { s with a := s.a ^^^ v, p := setZN (s.a ^^^ v) s.p }

/-- The sum of A, a byte and Carry into A, with C, V, Z and N (R153). -/
def addToA (v : Byte) : Bus Unit :=
  modify fun s => { s with a := addResult s.a v s.p.c, p := addFlags s.a v s.p }

/-- ADC (R153). -/
def adc (m : Mode) : Bus Unit := do
  addToA (← readOperand m)

/-- SBC: ADC with the operand's one's complement (R154). -/
def sbc (m : Mode) : Bus Unit := do
  addToA (~~~(← readOperand m))

/-- A compare of a register with the operand; no register is written (R155 to R157). -/
def compare (m : Mode) (r : State → Byte) : Bus Unit := do
  let v ← readOperand m
  modify fun s => { s with p := compareFlags (r s) v s.p }

/-- CMP (R155). -/
def cmp (m : Mode) : Bus Unit := compare m State.a

/-- CPX (R156). -/
def cpx (m : Mode) : Bus Unit := compare m State.x

/-- CPY (R157). -/
def cpy (m : Mode) : Bus Unit := compare m State.y

/-- BIT: Z from `A & m`, V and N from bits 6 and 7 of m; A is not written (R158). -/
def bitTest (m : Mode) : Bus Unit := do
  let v ← readOperand m
  modify fun s => { s with p := bitTestFlags s.a v s.p }

/-- ORA 0x01, R150 with R107. -/
def execOraIndX (b : Byte) (s : State) : Host.Outcome State Fault Refusal := runInstr (ora (.indexedIndirectX b)) s

/-- ORA 0x05, R150 with R104. -/
def execOraZp (b : Byte) (s : State) : Host.Outcome State Fault Refusal := runInstr (ora (.zeroPage b)) s

/-- ORA 0x09, R150 with R102. -/
def execOraImm (v : Byte) (s : State) : Host.Outcome State Fault Refusal := runInstr (ora (.immediate v)) s

/-- ORA 0x0D, R150 with R109. -/
def execOraAbs (w : Addr) (s : State) : Host.Outcome State Fault Refusal := runInstr (ora (.absolute w)) s

/-- ORA 0x11, R150 with R108. -/
def execOraIndY (b : Byte) (s : State) : Host.Outcome State Fault Refusal := runInstr (ora (.indirectIndexedY b)) s

/-- ORA 0x15, R150 with R105. -/
def execOraZpX (b : Byte) (s : State) : Host.Outcome State Fault Refusal := runInstr (ora (.zeroPageX b)) s

/-- ORA 0x19, R150 with R111. -/
def execOraAbsY (w : Addr) (s : State) : Host.Outcome State Fault Refusal := runInstr (ora (.absoluteY w)) s

/-- ORA 0x1D, R150 with R110. -/
def execOraAbsX (w : Addr) (s : State) : Host.Outcome State Fault Refusal := runInstr (ora (.absoluteX w)) s

/-- AND 0x21, R151 with R107. -/
def execAndIndX (b : Byte) (s : State) : Host.Outcome State Fault Refusal := runInstr (andA (.indexedIndirectX b)) s

/-- AND 0x25, R151 with R104. -/
def execAndZp (b : Byte) (s : State) : Host.Outcome State Fault Refusal := runInstr (andA (.zeroPage b)) s

/-- AND 0x29, R151 with R102. -/
def execAndImm (v : Byte) (s : State) : Host.Outcome State Fault Refusal := runInstr (andA (.immediate v)) s

/-- AND 0x2D, R151 with R109. -/
def execAndAbs (w : Addr) (s : State) : Host.Outcome State Fault Refusal := runInstr (andA (.absolute w)) s

/-- AND 0x31, R151 with R108. -/
def execAndIndY (b : Byte) (s : State) : Host.Outcome State Fault Refusal := runInstr (andA (.indirectIndexedY b)) s

/-- AND 0x35, R151 with R105. -/
def execAndZpX (b : Byte) (s : State) : Host.Outcome State Fault Refusal := runInstr (andA (.zeroPageX b)) s

/-- AND 0x39, R151 with R111. -/
def execAndAbsY (w : Addr) (s : State) : Host.Outcome State Fault Refusal := runInstr (andA (.absoluteY w)) s

/-- AND 0x3D, R151 with R110. -/
def execAndAbsX (w : Addr) (s : State) : Host.Outcome State Fault Refusal := runInstr (andA (.absoluteX w)) s

/-- EOR 0x41, R152 with R107. -/
def execEorIndX (b : Byte) (s : State) : Host.Outcome State Fault Refusal := runInstr (eor (.indexedIndirectX b)) s

/-- EOR 0x45, R152 with R104. -/
def execEorZp (b : Byte) (s : State) : Host.Outcome State Fault Refusal := runInstr (eor (.zeroPage b)) s

/-- EOR 0x49, R152 with R102. -/
def execEorImm (v : Byte) (s : State) : Host.Outcome State Fault Refusal := runInstr (eor (.immediate v)) s

/-- EOR 0x4D, R152 with R109. -/
def execEorAbs (w : Addr) (s : State) : Host.Outcome State Fault Refusal := runInstr (eor (.absolute w)) s

/-- EOR 0x51, R152 with R108. -/
def execEorIndY (b : Byte) (s : State) : Host.Outcome State Fault Refusal := runInstr (eor (.indirectIndexedY b)) s

/-- EOR 0x55, R152 with R105. -/
def execEorZpX (b : Byte) (s : State) : Host.Outcome State Fault Refusal := runInstr (eor (.zeroPageX b)) s

/-- EOR 0x59, R152 with R111. -/
def execEorAbsY (w : Addr) (s : State) : Host.Outcome State Fault Refusal := runInstr (eor (.absoluteY w)) s

/-- EOR 0x5D, R152 with R110. -/
def execEorAbsX (w : Addr) (s : State) : Host.Outcome State Fault Refusal := runInstr (eor (.absoluteX w)) s

/-- ADC 0x61, R153 with R107. -/
def execAdcIndX (b : Byte) (s : State) : Host.Outcome State Fault Refusal := runInstr (adc (.indexedIndirectX b)) s

/-- ADC 0x65, R153 with R104. -/
def execAdcZp (b : Byte) (s : State) : Host.Outcome State Fault Refusal := runInstr (adc (.zeroPage b)) s

/-- ADC 0x69, R153 with R102. -/
def execAdcImm (v : Byte) (s : State) : Host.Outcome State Fault Refusal := runInstr (adc (.immediate v)) s

/-- ADC 0x6D, R153 with R109. -/
def execAdcAbs (w : Addr) (s : State) : Host.Outcome State Fault Refusal := runInstr (adc (.absolute w)) s

/-- ADC 0x71, R153 with R108. -/
def execAdcIndY (b : Byte) (s : State) : Host.Outcome State Fault Refusal := runInstr (adc (.indirectIndexedY b)) s

/-- ADC 0x75, R153 with R105. -/
def execAdcZpX (b : Byte) (s : State) : Host.Outcome State Fault Refusal := runInstr (adc (.zeroPageX b)) s

/-- ADC 0x79, R153 with R111. -/
def execAdcAbsY (w : Addr) (s : State) : Host.Outcome State Fault Refusal := runInstr (adc (.absoluteY w)) s

/-- ADC 0x7D, R153 with R110. -/
def execAdcAbsX (w : Addr) (s : State) : Host.Outcome State Fault Refusal := runInstr (adc (.absoluteX w)) s

/-- SBC 0xE1, R154 with R107. -/
def execSbcIndX (b : Byte) (s : State) : Host.Outcome State Fault Refusal := runInstr (sbc (.indexedIndirectX b)) s

/-- SBC 0xE5, R154 with R104. -/
def execSbcZp (b : Byte) (s : State) : Host.Outcome State Fault Refusal := runInstr (sbc (.zeroPage b)) s

/-- SBC 0xE9, R154 with R102. -/
def execSbcImm (v : Byte) (s : State) : Host.Outcome State Fault Refusal := runInstr (sbc (.immediate v)) s

/-- SBC 0xED, R154 with R109. -/
def execSbcAbs (w : Addr) (s : State) : Host.Outcome State Fault Refusal := runInstr (sbc (.absolute w)) s

/-- SBC 0xF1, R154 with R108. -/
def execSbcIndY (b : Byte) (s : State) : Host.Outcome State Fault Refusal := runInstr (sbc (.indirectIndexedY b)) s

/-- SBC 0xF5, R154 with R105. -/
def execSbcZpX (b : Byte) (s : State) : Host.Outcome State Fault Refusal := runInstr (sbc (.zeroPageX b)) s

/-- SBC 0xF9, R154 with R111. -/
def execSbcAbsY (w : Addr) (s : State) : Host.Outcome State Fault Refusal := runInstr (sbc (.absoluteY w)) s

/-- SBC 0xFD, R154 with R110. -/
def execSbcAbsX (w : Addr) (s : State) : Host.Outcome State Fault Refusal := runInstr (sbc (.absoluteX w)) s

/-- CMP 0xC1, R155 with R107. -/
def execCmpIndX (b : Byte) (s : State) : Host.Outcome State Fault Refusal := runInstr (cmp (.indexedIndirectX b)) s

/-- CMP 0xC5, R155 with R104. -/
def execCmpZp (b : Byte) (s : State) : Host.Outcome State Fault Refusal := runInstr (cmp (.zeroPage b)) s

/-- CMP 0xC9, R155 with R102. -/
def execCmpImm (v : Byte) (s : State) : Host.Outcome State Fault Refusal := runInstr (cmp (.immediate v)) s

/-- CMP 0xCD, R155 with R109. -/
def execCmpAbs (w : Addr) (s : State) : Host.Outcome State Fault Refusal := runInstr (cmp (.absolute w)) s

/-- CMP 0xD1, R155 with R108. -/
def execCmpIndY (b : Byte) (s : State) : Host.Outcome State Fault Refusal := runInstr (cmp (.indirectIndexedY b)) s

/-- CMP 0xD5, R155 with R105. -/
def execCmpZpX (b : Byte) (s : State) : Host.Outcome State Fault Refusal := runInstr (cmp (.zeroPageX b)) s

/-- CMP 0xD9, R155 with R111. -/
def execCmpAbsY (w : Addr) (s : State) : Host.Outcome State Fault Refusal := runInstr (cmp (.absoluteY w)) s

/-- CMP 0xDD, R155 with R110. -/
def execCmpAbsX (w : Addr) (s : State) : Host.Outcome State Fault Refusal := runInstr (cmp (.absoluteX w)) s

/-- CPX 0xE0, R156 with R102. -/
def execCpxImm (v : Byte) (s : State) : Host.Outcome State Fault Refusal := runInstr (cpx (.immediate v)) s

/-- CPX 0xE4, R156 with R104. -/
def execCpxZp (b : Byte) (s : State) : Host.Outcome State Fault Refusal := runInstr (cpx (.zeroPage b)) s

/-- CPX 0xEC, R156 with R109. -/
def execCpxAbs (w : Addr) (s : State) : Host.Outcome State Fault Refusal := runInstr (cpx (.absolute w)) s

/-- CPY 0xC0, R157 with R102. -/
def execCpyImm (v : Byte) (s : State) : Host.Outcome State Fault Refusal := runInstr (cpy (.immediate v)) s

/-- CPY 0xC4, R157 with R104. -/
def execCpyZp (b : Byte) (s : State) : Host.Outcome State Fault Refusal := runInstr (cpy (.zeroPage b)) s

/-- CPY 0xCC, R157 with R109. -/
def execCpyAbs (w : Addr) (s : State) : Host.Outcome State Fault Refusal := runInstr (cpy (.absolute w)) s

/-- BIT 0x24, R158 with R104. -/
def execBitZp (b : Byte) (s : State) : Host.Outcome State Fault Refusal := runInstr (bitTest (.zeroPage b)) s

/-- BIT 0x2C, R158 with R109. -/
def execBitAbs (w : Addr) (s : State) : Host.Outcome State Fault Refusal := runInstr (bitTest (.absolute w)) s

end Sys2Proof.Machine
end

