-- ==== Sys2Proof/Machine/Control.lean ====
section
/-! DEFINITION. Jumps, calls, returns, BRK and the branches (spec/44_control.md R200 to R214). A state that reaches a meaning
has PC at the opcode, so PC is `pc0` of R10. -/

namespace Sys2Proof.Machine

/-- JMP abs 0x4C, R200 with R114: no transaction at the target. -/
def execJmpAbs (target : Addr) (s : State) : Host.Outcome State Fault Refusal :=
  runInstr (do
    advance 3
    setPc target) s

/-- JMP (abs) 0x6C, R201 with R115: when the pointer's low byte is 0xFF the target's high byte comes from the start of the
same page. -/
def execJmpInd (ptr : Addr) (s : State) : Host.Outcome State Fault Refusal :=
  runInstr (do
    advance 3
    let lo ← memRead ptr
    let hi ← memRead (joinBytes (highByte ptr) (lowByte ptr + 1))
    setPc (joinBytes hi lo)) s

/-- JSR 0x20, R202 with R114: pushes `pc0 + 2`, the address of the instruction's last byte. -/
def execJsr (target : Addr) (s : State) : Host.Outcome State Fault Refusal :=
  runInstr (do
    advance 3
    push16 ((← get).pc - 1)
    setPc target) s

/-- RTS 0x60, R203 with R112. -/
def execRts (s : State) : Host.Outcome State Fault Refusal :=
  runInstr (do
    advance 1
    let v ← pull16
    setPc (v + 1)) s

/-- RTI 0x40, R204 with R112. -/
def execRti (s : State) : Host.Outcome State Fault Refusal :=
  runInstr (do
    advance 1
    returnFromHandler) s

/-- BRK 0x00, R205 with R112: enters the handler at 0xFFFE, whatever I holds, to return to `pc0 + 2`; the byte at `pc0 + 1`
is not read. -/
def execBrk (s : State) : Host.Outcome State Fault Refusal := runInstr (enterHandler (s.pc + 2) true irqVector) s

/-- The common branch rule: with the tested flag as wanted, the signed displacement is added to the PC past the two bytes
(R206, R81). -/
def branch (taken : Status → Bool) (disp : Byte) : Bus Unit := do
  advance 2
  if taken (← get).p then
    modify fun s => { s with pc := s.pc + sext16 disp }

/-- BPL 0x10, R207 with R206 and R113: taken iff N = 0. -/
def execBpl (disp : Byte) (s : State) : Host.Outcome State Fault Refusal := runInstr (branch (fun p => !p.n) disp) s

/-- BMI 0x30, R208 with R206 and R113: taken iff N = 1. -/
def execBmi (disp : Byte) (s : State) : Host.Outcome State Fault Refusal := runInstr (branch (fun p => p.n) disp) s

/-- BVC 0x50, R209 with R206 and R113: taken iff V = 0. -/
def execBvc (disp : Byte) (s : State) : Host.Outcome State Fault Refusal := runInstr (branch (fun p => !p.v) disp) s

/-- BVS 0x70, R210 with R206 and R113: taken iff V = 1. -/
def execBvs (disp : Byte) (s : State) : Host.Outcome State Fault Refusal := runInstr (branch (fun p => p.v) disp) s

/-- BCC 0x90, R211 with R206 and R113: taken iff C = 0. -/
def execBcc (disp : Byte) (s : State) : Host.Outcome State Fault Refusal := runInstr (branch (fun p => !p.c) disp) s

/-- BCS 0xB0, R212 with R206 and R113: taken iff C = 1. -/
def execBcs (disp : Byte) (s : State) : Host.Outcome State Fault Refusal := runInstr (branch (fun p => p.c) disp) s

/-- BNE 0xD0, R213 with R206 and R113: taken iff Z = 0. -/
def execBne (disp : Byte) (s : State) : Host.Outcome State Fault Refusal := runInstr (branch (fun p => !p.z) disp) s

/-- BEQ 0xF0, R214 with R206 and R113: taken iff Z = 1. -/
def execBeq (disp : Byte) (s : State) : Host.Outcome State Fault Refusal := runInstr (branch (fun p => p.z) disp) s

end Sys2Proof.Machine
end

