-- ==== Sys2Proof/Machine/LoadStore.lean ====
section
/-! DEFINITION. The load and store instructions (spec/41_load_store.md R130 to R135): one operation per instruction, and
one meaning for each of its opcodes. -/

namespace Sys2Proof.Machine

/-- LDA: `v <- ReadLoc(loc); A <- v; SetZN(v)` (R130). -/
def lda (m : Mode) : Bus Unit := do
  let v ← readOperand m
  modify fun s => { s with a := v, p := setZN v s.p }

/-- LDX: `v <- ReadLoc(loc); X <- v; SetZN(v)` (R131). -/
def ldx (m : Mode) : Bus Unit := do
  let v ← readOperand m
  modify fun s => { s with x := v, p := setZN v s.p }

/-- LDY: `v <- ReadLoc(loc); Y <- v; SetZN(v)` (R132). -/
def ldy (m : Mode) : Bus Unit := do
  let v ← readOperand m
  modify fun s => { s with y := v, p := setZN v s.p }

/-- `WriteLoc(loc, r)` of a register, with no flag effect and no read of the destination (R133 to R135, R47). -/
def store (m : Mode) (r : State → Byte) : Bus Unit := do
  advance (modeLength m)
  let loc ← resolve m
  writeLoc loc (r (← get))

/-- STA (R133). -/
def sta (m : Mode) : Bus Unit := store m State.a

/-- STX (R134). -/
def stx (m : Mode) : Bus Unit := store m State.x

/-- STY (R135). -/
def sty (m : Mode) : Bus Unit := store m State.y

/-- LDA 0xA1, R130 with R107. -/
def execLdaIndX (b : Byte) (s : State) : Host.Outcome State Fault Refusal := runInstr (lda (.indexedIndirectX b)) s

/-- LDA 0xA5, R130 with R104. -/
def execLdaZp (b : Byte) (s : State) : Host.Outcome State Fault Refusal := runInstr (lda (.zeroPage b)) s

/-- LDA 0xA9, R130 with R102. -/
def execLdaImm (v : Byte) (s : State) : Host.Outcome State Fault Refusal := runInstr (lda (.immediate v)) s

/-- LDA 0xAD, R130 with R109. -/
def execLdaAbs (w : Addr) (s : State) : Host.Outcome State Fault Refusal := runInstr (lda (.absolute w)) s

/-- LDA 0xB1, R130 with R108. -/
def execLdaIndY (b : Byte) (s : State) : Host.Outcome State Fault Refusal := runInstr (lda (.indirectIndexedY b)) s

/-- LDA 0xB5, R130 with R105. -/
def execLdaZpX (b : Byte) (s : State) : Host.Outcome State Fault Refusal := runInstr (lda (.zeroPageX b)) s

/-- LDA 0xB9, R130 with R111. -/
def execLdaAbsY (w : Addr) (s : State) : Host.Outcome State Fault Refusal := runInstr (lda (.absoluteY w)) s

/-- LDA 0xBD, R130 with R110. -/
def execLdaAbsX (w : Addr) (s : State) : Host.Outcome State Fault Refusal := runInstr (lda (.absoluteX w)) s

/-- LDX 0xA2, R131 with R102. -/
def execLdxImm (v : Byte) (s : State) : Host.Outcome State Fault Refusal := runInstr (ldx (.immediate v)) s

/-- LDX 0xA6, R131 with R104. -/
def execLdxZp (b : Byte) (s : State) : Host.Outcome State Fault Refusal := runInstr (ldx (.zeroPage b)) s

/-- LDX 0xAE, R131 with R109. -/
def execLdxAbs (w : Addr) (s : State) : Host.Outcome State Fault Refusal := runInstr (ldx (.absolute w)) s

/-- LDX 0xB6, R131 with R106. -/
def execLdxZpY (b : Byte) (s : State) : Host.Outcome State Fault Refusal := runInstr (ldx (.zeroPageY b)) s

/-- LDX 0xBE, R131 with R111. -/
def execLdxAbsY (w : Addr) (s : State) : Host.Outcome State Fault Refusal := runInstr (ldx (.absoluteY w)) s

/-- LDY 0xA0, R132 with R102. -/
def execLdyImm (v : Byte) (s : State) : Host.Outcome State Fault Refusal := runInstr (ldy (.immediate v)) s

/-- LDY 0xA4, R132 with R104. -/
def execLdyZp (b : Byte) (s : State) : Host.Outcome State Fault Refusal := runInstr (ldy (.zeroPage b)) s

/-- LDY 0xAC, R132 with R109. -/
def execLdyAbs (w : Addr) (s : State) : Host.Outcome State Fault Refusal := runInstr (ldy (.absolute w)) s

/-- LDY 0xB4, R132 with R105. -/
def execLdyZpX (b : Byte) (s : State) : Host.Outcome State Fault Refusal := runInstr (ldy (.zeroPageX b)) s

/-- LDY 0xBC, R132 with R110. -/
def execLdyAbsX (w : Addr) (s : State) : Host.Outcome State Fault Refusal := runInstr (ldy (.absoluteX w)) s

/-- STA 0x81, R133 with R107. -/
def execStaIndX (b : Byte) (s : State) : Host.Outcome State Fault Refusal := runInstr (sta (.indexedIndirectX b)) s

/-- STA 0x85, R133 with R104. -/
def execStaZp (b : Byte) (s : State) : Host.Outcome State Fault Refusal := runInstr (sta (.zeroPage b)) s

/-- STA 0x8D, R133 with R109. -/
def execStaAbs (w : Addr) (s : State) : Host.Outcome State Fault Refusal := runInstr (sta (.absolute w)) s

/-- STA 0x91, R133 with R108. -/
def execStaIndY (b : Byte) (s : State) : Host.Outcome State Fault Refusal := runInstr (sta (.indirectIndexedY b)) s

/-- STA 0x95, R133 with R105. -/
def execStaZpX (b : Byte) (s : State) : Host.Outcome State Fault Refusal := runInstr (sta (.zeroPageX b)) s

/-- STA 0x99, R133 with R111. -/
def execStaAbsY (w : Addr) (s : State) : Host.Outcome State Fault Refusal := runInstr (sta (.absoluteY w)) s

/-- STA 0x9D, R133 with R110. -/
def execStaAbsX (w : Addr) (s : State) : Host.Outcome State Fault Refusal := runInstr (sta (.absoluteX w)) s

/-- STX 0x86, R134 with R104. -/
def execStxZp (b : Byte) (s : State) : Host.Outcome State Fault Refusal := runInstr (stx (.zeroPage b)) s

/-- STX 0x8E, R134 with R109. -/
def execStxAbs (w : Addr) (s : State) : Host.Outcome State Fault Refusal := runInstr (stx (.absolute w)) s

/-- STX 0x96, R134 with R106. -/
def execStxZpY (b : Byte) (s : State) : Host.Outcome State Fault Refusal := runInstr (stx (.zeroPageY b)) s

/-- STY 0x84, R135 with R104. -/
def execStyZp (b : Byte) (s : State) : Host.Outcome State Fault Refusal := runInstr (sty (.zeroPage b)) s

/-- STY 0x8C, R135 with R109. -/
def execStyAbs (w : Addr) (s : State) : Host.Outcome State Fault Refusal := runInstr (sty (.absolute w)) s

/-- STY 0x94, R135 with R105. -/
def execStyZpX (b : Byte) (s : State) : Host.Outcome State Fault Refusal := runInstr (sty (.zeroPageX b)) s

end Sys2Proof.Machine
end

