-- ==== Sys2Proof/Machine/Rmw.lean ====
section
/-! DEFINITION. The shift, rotate, increment and decrement instructions (spec/43_rmw.md R180 to R190): one operation per
instruction, and one meaning for each of its opcodes. -/

namespace Sys2Proof.Machine

/-- The read-modify-write pattern: one read of the location, one write of the new value, and no other access (R180); Carry
as `carry` says from the old value, Z and N from the new one. -/
def readModifyWrite (m : Mode) (result : Byte → Bool → Byte) (carry : Byte → Bool → Bool) : Bus Unit := do
  advance (modeLength m)
  let loc ← resolve m
  let v ← readLoc loc
  let c0 := (← get).p.c
  modify fun s => { s with p := { s.p with c := carry v c0 } }
  writeLoc loc (result v c0)
  modify fun s => { s with p := setZN (result v c0) s.p }

/-- ASL (R181). -/
def asl (m : Mode) : Bus Unit := readModifyWrite m aslResult carryFromTop

/-- LSR (R182). -/
def lsr (m : Mode) : Bus Unit := readModifyWrite m lsrResult carryFromBottom

/-- ROL (R183). -/
def rol (m : Mode) : Bus Unit := readModifyWrite m rolResult carryFromTop

/-- ROR (R184). -/
def ror (m : Mode) : Bus Unit := readModifyWrite m rorResult carryFromBottom

/-- INC (R185). -/
def inc (m : Mode) : Bus Unit := readModifyWrite m incResult carryKept

/-- DEC (R186). -/
def dec (m : Mode) : Bus Unit := readModifyWrite m decResult carryKept

/-- ASL 0x06, R181 with R104. -/
def execAslZp (b : Byte) (s : State) : Host.Outcome State Fault Refusal := runInstr (asl (.zeroPage b)) s

/-- ASL 0x0A, R181 with R103. -/
def execAslAcc (s : State) : Host.Outcome State Fault Refusal := runInstr (asl .accumulator) s

/-- ASL 0x0E, R181 with R109. -/
def execAslAbs (w : Addr) (s : State) : Host.Outcome State Fault Refusal := runInstr (asl (.absolute w)) s

/-- ASL 0x16, R181 with R105. -/
def execAslZpX (b : Byte) (s : State) : Host.Outcome State Fault Refusal := runInstr (asl (.zeroPageX b)) s

/-- ASL 0x1E, R181 with R110. -/
def execAslAbsX (w : Addr) (s : State) : Host.Outcome State Fault Refusal := runInstr (asl (.absoluteX w)) s

/-- LSR 0x46, R182 with R104. -/
def execLsrZp (b : Byte) (s : State) : Host.Outcome State Fault Refusal := runInstr (lsr (.zeroPage b)) s

/-- LSR 0x4A, R182 with R103. -/
def execLsrAcc (s : State) : Host.Outcome State Fault Refusal := runInstr (lsr .accumulator) s

/-- LSR 0x4E, R182 with R109. -/
def execLsrAbs (w : Addr) (s : State) : Host.Outcome State Fault Refusal := runInstr (lsr (.absolute w)) s

/-- LSR 0x56, R182 with R105. -/
def execLsrZpX (b : Byte) (s : State) : Host.Outcome State Fault Refusal := runInstr (lsr (.zeroPageX b)) s

/-- LSR 0x5E, R182 with R110. -/
def execLsrAbsX (w : Addr) (s : State) : Host.Outcome State Fault Refusal := runInstr (lsr (.absoluteX w)) s

/-- ROL 0x26, R183 with R104. -/
def execRolZp (b : Byte) (s : State) : Host.Outcome State Fault Refusal := runInstr (rol (.zeroPage b)) s

/-- ROL 0x2A, R183 with R103. -/
def execRolAcc (s : State) : Host.Outcome State Fault Refusal := runInstr (rol .accumulator) s

/-- ROL 0x2E, R183 with R109. -/
def execRolAbs (w : Addr) (s : State) : Host.Outcome State Fault Refusal := runInstr (rol (.absolute w)) s

/-- ROL 0x36, R183 with R105. -/
def execRolZpX (b : Byte) (s : State) : Host.Outcome State Fault Refusal := runInstr (rol (.zeroPageX b)) s

/-- ROL 0x3E, R183 with R110. -/
def execRolAbsX (w : Addr) (s : State) : Host.Outcome State Fault Refusal := runInstr (rol (.absoluteX w)) s

/-- ROR 0x66, R184 with R104. -/
def execRorZp (b : Byte) (s : State) : Host.Outcome State Fault Refusal := runInstr (ror (.zeroPage b)) s

/-- ROR 0x6A, R184 with R103. -/
def execRorAcc (s : State) : Host.Outcome State Fault Refusal := runInstr (ror .accumulator) s

/-- ROR 0x6E, R184 with R109. -/
def execRorAbs (w : Addr) (s : State) : Host.Outcome State Fault Refusal := runInstr (ror (.absolute w)) s

/-- ROR 0x76, R184 with R105. -/
def execRorZpX (b : Byte) (s : State) : Host.Outcome State Fault Refusal := runInstr (ror (.zeroPageX b)) s

/-- ROR 0x7E, R184 with R110. -/
def execRorAbsX (w : Addr) (s : State) : Host.Outcome State Fault Refusal := runInstr (ror (.absoluteX w)) s

/-- INC 0xE6, R185 with R104. -/
def execIncZp (b : Byte) (s : State) : Host.Outcome State Fault Refusal := runInstr (inc (.zeroPage b)) s

/-- INC 0xEE, R185 with R109. -/
def execIncAbs (w : Addr) (s : State) : Host.Outcome State Fault Refusal := runInstr (inc (.absolute w)) s

/-- INC 0xF6, R185 with R105. -/
def execIncZpX (b : Byte) (s : State) : Host.Outcome State Fault Refusal := runInstr (inc (.zeroPageX b)) s

/-- INC 0xFE, R185 with R110. -/
def execIncAbsX (w : Addr) (s : State) : Host.Outcome State Fault Refusal := runInstr (inc (.absoluteX w)) s

/-- DEC 0xC6, R186 with R104. -/
def execDecZp (b : Byte) (s : State) : Host.Outcome State Fault Refusal := runInstr (dec (.zeroPage b)) s

/-- DEC 0xCE, R186 with R109. -/
def execDecAbs (w : Addr) (s : State) : Host.Outcome State Fault Refusal := runInstr (dec (.absolute w)) s

/-- DEC 0xD6, R186 with R105. -/
def execDecZpX (b : Byte) (s : State) : Host.Outcome State Fault Refusal := runInstr (dec (.zeroPageX b)) s

/-- DEC 0xDE, R186 with R110. -/
def execDecAbsX (w : Addr) (s : State) : Host.Outcome State Fault Refusal := runInstr (dec (.absoluteX w)) s

/-- INX 0xE8, R187 with R112. -/
def execInx (s : State) : Host.Outcome State Fault Refusal :=
  runInstr (do
    advance 1
    modify fun t => { t with x := t.x + 1, p := setZN (t.x + 1) t.p }) s

/-- INY 0xC8, R188 with R112. -/
def execIny (s : State) : Host.Outcome State Fault Refusal :=
  runInstr (do
    advance 1
    modify fun t => { t with y := t.y + 1, p := setZN (t.y + 1) t.p }) s

/-- DEX 0xCA, R189 with R112. -/
def execDex (s : State) : Host.Outcome State Fault Refusal :=
  runInstr (do
    advance 1
    modify fun t => { t with x := t.x - 1, p := setZN (t.x - 1) t.p }) s

/-- DEY 0x88, R190 with R112. -/
def execDey (s : State) : Host.Outcome State Fault Refusal :=
  runInstr (do
    advance 1
    modify fun t => { t with y := t.y - 1, p := setZN (t.y - 1) t.p }) s

end Sys2Proof.Machine
end

