-- ==== Sys2Proof/Machine/StackTransferFlags.lean ====
section
/-! DEFINITION. The stack, register-transfer, flag and no-operation instructions (spec/45_stack_transfer_flags.md R230 to
R247), all one byte long (R112). -/

namespace Sys2Proof.Machine

/-- A one-byte instruction that only changes registers and flags (R112). -/
def oneByteOp (change : State → State) : Bus Unit := do
  advance 1
  modify change

/-- PHA 0x48, R230. -/
def execPha (s : State) : Host.Outcome State Fault Refusal :=
  runInstr (do
    advance 1
    push (← get).a) s

/-- PLA 0x68, R231. -/
def execPla (s : State) : Host.Outcome State Fault Refusal :=
  runInstr (do
    advance 1
    let v ← pull
    modify fun t => { t with a := v, p := setZN v t.p }) s

/-- PHP 0x08, R232: bits 5 and 4 of the pushed byte are 1. -/
def execPhp (s : State) : Host.Outcome State Fault Refusal :=
  runInstr (do
    advance 1
    push (statusByte (← get).p true)) s

/-- PLP 0x28, R233. -/
def execPlp (s : State) : Host.Outcome State Fault Refusal :=
  runInstr (do
    advance 1
    let b ← pull
    modify fun t => { t with p := statusOfByte b }) s

/-- TAX 0xAA, R234. -/
def execTax (s : State) : Host.Outcome State Fault Refusal :=
  runInstr (oneByteOp fun t => { t with x := t.a, p := setZN t.a t.p }) s

/-- TXA 0x8A, R235. -/
def execTxa (s : State) : Host.Outcome State Fault Refusal :=
  runInstr (oneByteOp fun t => { t with a := t.x, p := setZN t.x t.p }) s

/-- TAY 0xA8, R236. -/
def execTay (s : State) : Host.Outcome State Fault Refusal :=
  runInstr (oneByteOp fun t => { t with y := t.a, p := setZN t.a t.p }) s

/-- TYA 0x98, R237. -/
def execTya (s : State) : Host.Outcome State Fault Refusal :=
  runInstr (oneByteOp fun t => { t with a := t.y, p := setZN t.y t.p }) s

/-- TSX 0xBA, R238. -/
def execTsx (s : State) : Host.Outcome State Fault Refusal :=
  runInstr (oneByteOp fun t => { t with x := t.sp, p := setZN t.sp t.p }) s

/-- TXS 0x9A, R239: no flag changes. -/
def execTxs (s : State) : Host.Outcome State Fault Refusal := runInstr (oneByteOp fun t => { t with sp := t.x }) s

/-- CLC 0x18, R240. -/
def execClc (s : State) : Host.Outcome State Fault Refusal :=
  runInstr (oneByteOp fun t => { t with p := { t.p with c := false } }) s

/-- SEC 0x38, R241. -/
def execSec (s : State) : Host.Outcome State Fault Refusal :=
  runInstr (oneByteOp fun t => { t with p := { t.p with c := true } }) s

/-- CLI 0x58, R242. -/
def execCli (s : State) : Host.Outcome State Fault Refusal :=
  runInstr (oneByteOp fun t => { t with p := { t.p with i := false } }) s

/-- SEI 0x78, R243. -/
def execSei (s : State) : Host.Outcome State Fault Refusal :=
  runInstr (oneByteOp fun t => { t with p := { t.p with i := true } }) s

/-- CLV 0xB8, R244. -/
def execClv (s : State) : Host.Outcome State Fault Refusal :=
  runInstr (oneByteOp fun t => { t with p := { t.p with v := false } }) s

/-- CLD 0xD8, R245. -/
def execCld (s : State) : Host.Outcome State Fault Refusal :=
  runInstr (oneByteOp fun t => { t with p := { t.p with d := false } }) s

/-- SED 0xF8, R246. -/
def execSed (s : State) : Host.Outcome State Fault Refusal :=
  runInstr (oneByteOp fun t => { t with p := { t.p with d := true } }) s

/-- NOP 0xEA, R247: only PC changes. -/
def execNop (s : State) : Host.Outcome State Fault Refusal := runInstr (advance 1) s

end Sys2Proof.Machine
end

