-- ==== Sys2Proof/Machine/Dispatch.lean ====
section
/-! DEFINITION. `Execute` of spec/30_encoding.md R84: each instruction to its meaning, one arm per constructor. The state
has PC at the opcode; a meaning moves PC past the instruction itself. -/

namespace Sys2Proof.Machine

def exec (i : Instr) (s : State) : Host.Outcome State Fault Refusal :=
  match i with
  | .brk => Sys2Proof.Machine.execBrk s
  | .oraIndX b => Sys2Proof.Machine.execOraIndX b s
  | .oraZp b => Sys2Proof.Machine.execOraZp b s
  | .oraImm v => Sys2Proof.Machine.execOraImm v s
  | .oraAbs w => Sys2Proof.Machine.execOraAbs w s
  | .oraIndY b => Sys2Proof.Machine.execOraIndY b s
  | .oraZpX b => Sys2Proof.Machine.execOraZpX b s
  | .oraAbsY w => Sys2Proof.Machine.execOraAbsY w s
  | .oraAbsX w => Sys2Proof.Machine.execOraAbsX w s
  | .aslZp b => Sys2Proof.Machine.execAslZp b s
  | .aslAcc => Sys2Proof.Machine.execAslAcc s
  | .aslAbs w => Sys2Proof.Machine.execAslAbs w s
  | .aslZpX b => Sys2Proof.Machine.execAslZpX b s
  | .aslAbsX w => Sys2Proof.Machine.execAslAbsX w s
  | .php => Sys2Proof.Machine.execPhp s
  | .bpl d => Sys2Proof.Machine.execBpl d s
  | .clc => Sys2Proof.Machine.execClc s
  | .jsr w => Sys2Proof.Machine.execJsr w s
  | .andIndX b => Sys2Proof.Machine.execAndIndX b s
  | .andZp b => Sys2Proof.Machine.execAndZp b s
  | .andImm v => Sys2Proof.Machine.execAndImm v s
  | .andAbs w => Sys2Proof.Machine.execAndAbs w s
  | .andIndY b => Sys2Proof.Machine.execAndIndY b s
  | .andZpX b => Sys2Proof.Machine.execAndZpX b s
  | .andAbsY w => Sys2Proof.Machine.execAndAbsY w s
  | .andAbsX w => Sys2Proof.Machine.execAndAbsX w s
  | .bitZp b => Sys2Proof.Machine.execBitZp b s
  | .bitAbs w => Sys2Proof.Machine.execBitAbs w s
  | .rolZp b => Sys2Proof.Machine.execRolZp b s
  | .rolAcc => Sys2Proof.Machine.execRolAcc s
  | .rolAbs w => Sys2Proof.Machine.execRolAbs w s
  | .rolZpX b => Sys2Proof.Machine.execRolZpX b s
  | .rolAbsX w => Sys2Proof.Machine.execRolAbsX w s
  | .plp => Sys2Proof.Machine.execPlp s
  | .bmi d => Sys2Proof.Machine.execBmi d s
  | .sec => Sys2Proof.Machine.execSec s
  | .rti => Sys2Proof.Machine.execRti s
  | .eorIndX b => Sys2Proof.Machine.execEorIndX b s
  | .eorZp b => Sys2Proof.Machine.execEorZp b s
  | .eorImm v => Sys2Proof.Machine.execEorImm v s
  | .eorAbs w => Sys2Proof.Machine.execEorAbs w s
  | .eorIndY b => Sys2Proof.Machine.execEorIndY b s
  | .eorZpX b => Sys2Proof.Machine.execEorZpX b s
  | .eorAbsY w => Sys2Proof.Machine.execEorAbsY w s
  | .eorAbsX w => Sys2Proof.Machine.execEorAbsX w s
  | .lsrZp b => Sys2Proof.Machine.execLsrZp b s
  | .lsrAcc => Sys2Proof.Machine.execLsrAcc s
  | .lsrAbs w => Sys2Proof.Machine.execLsrAbs w s
  | .lsrZpX b => Sys2Proof.Machine.execLsrZpX b s
  | .lsrAbsX w => Sys2Proof.Machine.execLsrAbsX w s
  | .pha => Sys2Proof.Machine.execPha s
  | .jmpAbs w => Sys2Proof.Machine.execJmpAbs w s
  | .jmpInd w => Sys2Proof.Machine.execJmpInd w s
  | .bvc d => Sys2Proof.Machine.execBvc d s
  | .cli => Sys2Proof.Machine.execCli s
  | .rts => Sys2Proof.Machine.execRts s
  | .adcIndX b => Sys2Proof.Machine.execAdcIndX b s
  | .adcZp b => Sys2Proof.Machine.execAdcZp b s
  | .adcImm v => Sys2Proof.Machine.execAdcImm v s
  | .adcAbs w => Sys2Proof.Machine.execAdcAbs w s
  | .adcIndY b => Sys2Proof.Machine.execAdcIndY b s
  | .adcZpX b => Sys2Proof.Machine.execAdcZpX b s
  | .adcAbsY w => Sys2Proof.Machine.execAdcAbsY w s
  | .adcAbsX w => Sys2Proof.Machine.execAdcAbsX w s
  | .rorZp b => Sys2Proof.Machine.execRorZp b s
  | .rorAcc => Sys2Proof.Machine.execRorAcc s
  | .rorAbs w => Sys2Proof.Machine.execRorAbs w s
  | .rorZpX b => Sys2Proof.Machine.execRorZpX b s
  | .rorAbsX w => Sys2Proof.Machine.execRorAbsX w s
  | .pla => Sys2Proof.Machine.execPla s
  | .bvs d => Sys2Proof.Machine.execBvs d s
  | .sei => Sys2Proof.Machine.execSei s
  | .staIndX b => Sys2Proof.Machine.execStaIndX b s
  | .staZp b => Sys2Proof.Machine.execStaZp b s
  | .staAbs w => Sys2Proof.Machine.execStaAbs w s
  | .staIndY b => Sys2Proof.Machine.execStaIndY b s
  | .staZpX b => Sys2Proof.Machine.execStaZpX b s
  | .staAbsY w => Sys2Proof.Machine.execStaAbsY w s
  | .staAbsX w => Sys2Proof.Machine.execStaAbsX w s
  | .styZp b => Sys2Proof.Machine.execStyZp b s
  | .styAbs w => Sys2Proof.Machine.execStyAbs w s
  | .styZpX b => Sys2Proof.Machine.execStyZpX b s
  | .stxZp b => Sys2Proof.Machine.execStxZp b s
  | .stxAbs w => Sys2Proof.Machine.execStxAbs w s
  | .stxZpY b => Sys2Proof.Machine.execStxZpY b s
  | .dey => Sys2Proof.Machine.execDey s
  | .txa => Sys2Proof.Machine.execTxa s
  | .bcc d => Sys2Proof.Machine.execBcc d s
  | .tya => Sys2Proof.Machine.execTya s
  | .txs => Sys2Proof.Machine.execTxs s
  | .ldyImm v => Sys2Proof.Machine.execLdyImm v s
  | .ldyZp b => Sys2Proof.Machine.execLdyZp b s
  | .ldyAbs w => Sys2Proof.Machine.execLdyAbs w s
  | .ldyZpX b => Sys2Proof.Machine.execLdyZpX b s
  | .ldyAbsX w => Sys2Proof.Machine.execLdyAbsX w s
  | .ldaIndX b => Sys2Proof.Machine.execLdaIndX b s
  | .ldaZp b => Sys2Proof.Machine.execLdaZp b s
  | .ldaImm v => Sys2Proof.Machine.execLdaImm v s
  | .ldaAbs w => Sys2Proof.Machine.execLdaAbs w s
  | .ldaIndY b => Sys2Proof.Machine.execLdaIndY b s
  | .ldaZpX b => Sys2Proof.Machine.execLdaZpX b s
  | .ldaAbsY w => Sys2Proof.Machine.execLdaAbsY w s
  | .ldaAbsX w => Sys2Proof.Machine.execLdaAbsX w s
  | .ldxImm v => Sys2Proof.Machine.execLdxImm v s
  | .ldxZp b => Sys2Proof.Machine.execLdxZp b s
  | .ldxAbs w => Sys2Proof.Machine.execLdxAbs w s
  | .ldxZpY b => Sys2Proof.Machine.execLdxZpY b s
  | .ldxAbsY w => Sys2Proof.Machine.execLdxAbsY w s
  | .tay => Sys2Proof.Machine.execTay s
  | .tax => Sys2Proof.Machine.execTax s
  | .bcs d => Sys2Proof.Machine.execBcs d s
  | .clv => Sys2Proof.Machine.execClv s
  | .tsx => Sys2Proof.Machine.execTsx s
  | .cpyImm v => Sys2Proof.Machine.execCpyImm v s
  | .cpyZp b => Sys2Proof.Machine.execCpyZp b s
  | .cpyAbs w => Sys2Proof.Machine.execCpyAbs w s
  | .cmpIndX b => Sys2Proof.Machine.execCmpIndX b s
  | .cmpZp b => Sys2Proof.Machine.execCmpZp b s
  | .cmpImm v => Sys2Proof.Machine.execCmpImm v s
  | .cmpAbs w => Sys2Proof.Machine.execCmpAbs w s
  | .cmpIndY b => Sys2Proof.Machine.execCmpIndY b s
  | .cmpZpX b => Sys2Proof.Machine.execCmpZpX b s
  | .cmpAbsY w => Sys2Proof.Machine.execCmpAbsY w s
  | .cmpAbsX w => Sys2Proof.Machine.execCmpAbsX w s
  | .decZp b => Sys2Proof.Machine.execDecZp b s
  | .decAbs w => Sys2Proof.Machine.execDecAbs w s
  | .decZpX b => Sys2Proof.Machine.execDecZpX b s
  | .decAbsX w => Sys2Proof.Machine.execDecAbsX w s
  | .iny => Sys2Proof.Machine.execIny s
  | .dex => Sys2Proof.Machine.execDex s
  | .bne d => Sys2Proof.Machine.execBne d s
  | .cld => Sys2Proof.Machine.execCld s
  | .cpxImm v => Sys2Proof.Machine.execCpxImm v s
  | .cpxZp b => Sys2Proof.Machine.execCpxZp b s
  | .cpxAbs w => Sys2Proof.Machine.execCpxAbs w s
  | .sbcIndX b => Sys2Proof.Machine.execSbcIndX b s
  | .sbcZp b => Sys2Proof.Machine.execSbcZp b s
  | .sbcImm v => Sys2Proof.Machine.execSbcImm v s
  | .sbcAbs w => Sys2Proof.Machine.execSbcAbs w s
  | .sbcIndY b => Sys2Proof.Machine.execSbcIndY b s
  | .sbcZpX b => Sys2Proof.Machine.execSbcZpX b s
  | .sbcAbsY w => Sys2Proof.Machine.execSbcAbsY w s
  | .sbcAbsX w => Sys2Proof.Machine.execSbcAbsX w s
  | .incZp b => Sys2Proof.Machine.execIncZp b s
  | .incAbs w => Sys2Proof.Machine.execIncAbs w s
  | .incZpX b => Sys2Proof.Machine.execIncZpX b s
  | .incAbsX w => Sys2Proof.Machine.execIncAbsX w s
  | .inx => Sys2Proof.Machine.execInx s
  | .nop => Sys2Proof.Machine.execNop s
  | .beq d => Sys2Proof.Machine.execBeq d s
  | .sed => Sys2Proof.Machine.execSed s

end Sys2Proof.Machine
end

