-- ==== Sys2Proof/Machine/Fetch.lean ====
section
/-! DEFINITION. Fetching an instruction's bytes (spec/30_encoding.md R84, spec/40_addressing.md R101), and placing an
instruction where the next fetch reads. -/

namespace Sys2Proof.Machine

/-- `n` bytes in address order, one read transaction each, the address wrapping at 0xFFFF (R23, R101). -/
def fetchBytes : Nat → Addr → Bus (List Byte)
  | 0, _ => pure []
  | n + 1, addr => do
    let b ← memRead addr
    let rest ← fetchBytes n (addr + 1)
    pure (b :: rest)

/-- Opcode fetch, decode, and the operand bytes the opcode asks for (R84). An illegal opcode raises before any operand byte
is fetched (R301, R302). PC stays at the opcode: the instruction's meaning moves it. Fewer bytes than the opcode asks for
never reach the decoder, so its second rejection here is the same fault and is not reached. -/
def fetchInstr : Bus Instr := do
  let pc0 := (← get).pc
  let op ← memRead pc0
  match operandCount op with
  | none => throw (.illegalOpcode op pc0)
  | some n =>
    let rest ← fetchBytes n (pc0 + 1)
    match decode (op :: rest) with
    | .ok (i, _) => pure i
    | .error _ => throw (.illegalOpcode op pc0)

/-- A request begins: its record of bus transactions is empty (R33). -/
def beginRequest (s : State) : State := { s with bus := [] }

/-- Whether an address is a byte of RAM, PRG RAM or PRG ROM. -/
def backed (c : Config) (addr : Addr) : Bool :=
  match route c addr with
  | .ram _ | .prgRam _ | .prgRom _ => true
  | .device _ | .unclaimed => false

/-- A byte put into the array behind an address from outside the machine, the ROM image included. -/
def poke (addr : Addr) (v : Byte) (s : State) : State :=
  match route s.cfg addr with
  | .ram k => { s with ram := s.ram.write k v }
  | .prgRam k => { s with prgRam := s.prgRam.write k v }
  | .prgRom k => { s with cfg := { s.cfg with prgRom := s.cfg.prgRom.write k v } }
  | .device _ | .unclaimed => s

/-- Bytes put at consecutive addresses from outside the machine. -/
def pokeAll : List Byte → Addr → State → State
  | [], _, s => s
  | v :: rest, addr, s => pokeAll rest (addr + 1) (poke addr v s)

/-- The state with an instruction's bytes where the next step fetches, ready for that step to fetch them: the latch clear,
no interrupt request, and PC at address 0 if the three bytes at PC are not all backed by an array (log entry 8). -/
def placeInstruction (bytes : List Byte) (s : State) : State :=
  let ready := { s with fault := none, irq := false, nmiPending := false }
  let here := backed s.cfg s.pc && backed s.cfg (s.pc + 1) && backed s.cfg (s.pc + 2)
  let placed := if here then ready else { ready with pc := 0 }
  pokeAll bytes placed.pc placed

end Sys2Proof.Machine
end

