-- ==== Sys2Proof/Machine/Step.lean ====
section
/-! DEFINITION. One `step` request (spec/30_encoding.md R84, spec/60_exceptions.md R305, R314). -/

namespace Sys2Proof.Machine

/-- A `step` request. With the latch full it does nothing and returns the latched fault (R305). Otherwise it takes a pending
interrupt of the extension (R314), or fetches, decodes and executes one instruction (R84). A step that detects a fault
answers the state with the latch set (R302, R306; log entry 6). -/
def step (s : State) : Host.Outcome State Fault Refusal :=
  match s.fault with
  | some f => .fault f
  | none =>
    match acceptedInterrupt (beginRequest s) with
    | some k => takeInterrupt k (beginRequest s)
    | none =>
      match fetchInstr (beginRequest s) with
      | .ok i t => exec i t
      | .error f t => .next (latchFault (beginRequest s) f t)

/-- `s` with the instruction of a table word placed where `step` fetches next (log entry 8). -/
def State.withFetchWord (s : State) (nbits w : Nat) : State := placeInstruction (tableBytes nbits w) s

end Sys2Proof.Machine
end

