-- ==== Sys2Proof/Machine/Effects.lean ====
section
/-! DEFINITION. The operations of the bus and of the resolver as functions of the state alone, with no transaction taken:
what a read would answer and what state it would leave. Statements are written with these; Sys2Proof/Laws proves that the
operations do exactly this. -/

namespace Sys2Proof.Machine

/-- Whether a transaction with an address is performed: under the strict policy an unclaimed address raises (R54). -/
def claimed (c : Config) (addr : Addr) : Bool := !(c.strictUnmapped && route c addr == .unclaimed)

/-- The byte a read transaction answers (R49 to R53). -/
def answer (s : State) (addr : Addr) : Byte :=
  match route s.cfg addr with
  | .ram k => s.ram.read k
  | .device r => Config.deviceAnswer s.draws r
  | .unclaimed => 0x00
  | .prgRam k => s.prgRam.read k
  | .prgRom k => s.cfg.prgRom.read k

/-- The state after a read transaction: only a device's next answer is another one (R46, R50, R51). -/
def afterRead (s : State) (addr : Addr) : State :=
  { s with
    draws := match route s.cfg addr with
      | .device _ => s.draws + 1
      | _ => s.draws
    bus := s.bus ++ [.read addr (answer s addr)] }

/-- The bytes that `n` read transactions at consecutive addresses answer, each in the state the ones before it leave (R101). -/
def answers : Nat → Addr → State → List Byte
  | 0, _, _ => []
  | n + 1, addr, s => answer s addr :: answers n (addr + 1) (afterRead s addr)

/-- The state after those `n` read transactions. -/
def afterReads : Nat → Addr → State → State
  | 0, _, s => s
  | n + 1, addr, s => afterReads n (addr + 1) (afterRead s addr)

/-- The state after a write transaction: RAM and PRG RAM alone can change (R49 to R53). -/
def afterWrite (s : State) (addr : Addr) (v : Byte) : State :=
  { s with
    ram := match route s.cfg addr with
      | .ram k => s.ram.write k v
      | _ => s.ram
    prgRam := match route s.cfg addr with
      | .prgRam k => s.prgRam.write k v
      | _ => s.prgRam
    bus := s.bus ++ [.write addr v] }

/-- The state after a push (R56). -/
def afterPush (s : State) (v : Byte) : State := { afterWrite s (stackAddr s.sp) v with sp := s.sp - 1 }

/-- The byte a pull answers (R57). -/
def pullByte (s : State) : Byte := answer s (stackAddr (s.sp + 1))

/-- The state after a pull (R57). -/
def afterPull (s : State) : State := { afterRead s (stackAddr (s.sp + 1)) with sp := s.sp + 1 }

/-- The state after the two pushes of a word (R58). -/
def afterPush16 (s : State) (w : Addr) : State := afterPush (afterPush s (highByte w)) (lowByte w)

/-- The word two pulls answer (R58). -/
def pullWord (s : State) : Addr := joinBytes (pullByte (afterPull s)) (pullByte s)

/-- The state after the two pulls of a word (R58). -/
def afterPull16 (s : State) : State := afterPull (afterPull s)

/-- The word `Read16` answers (R42). -/
def answer16 (s : State) (addr : Addr) : Addr := joinBytes (answer (afterRead s addr) (addr + 1)) (answer s addr)

/-- The state after `Read16` (R42). -/
def afterRead16 (s : State) (addr : Addr) : State := afterRead (afterRead s addr) (addr + 1)

/-- Whether both transactions of `Read16` are performed (R42, R54). -/
def claimed16 (c : Config) (addr : Addr) : Bool := claimed c addr && claimed c (addr + 1)

/-- The state after the three pushes of an entry to a handler (R205, R315). -/
def afterEntryPushes (s : State) (returnTo : Addr) (b4 : Bool) : State :=
  afterPush (afterPush16 s returnTo) (statusByte s.p b4)

/-- The state after an entry to a handler whose vector can be read (R205, R315). -/
def afterEntry (s : State) (returnTo : Addr) (b4 : Bool) (vector : Addr) : State :=
  { afterRead16 (afterEntryPushes s returnTo b4) vector with
    p := { s.p with i := true }
    pc := answer16 (afterEntryPushes s returnTo b4) vector }

/-- The state after the return from a handler (R204). -/
def afterReturn (s : State) : State :=
  { afterPull16 (afterPull s) with p := statusOfByte (pullByte s), pc := pullWord (afterPull s) }

/-- The pointer `Read16zp` answers: both its bytes lie in the zero page, which is internal RAM (R43, R49). -/
def zpPointer (s : State) (p : Byte) : Addr := joinBytes (s.ram.read (p + 1).toNat) (s.ram.read p.toNat)

/-- The two transactions of `Read16zp` (R43). -/
def zpPointerReads (s : State) (p : Byte) : List BusEvent :=
  [.read (zext16 p) (s.ram.read p.toNat), .read (zext16 (p + 1)) (s.ram.read (p + 1).toNat)]

/-- The location a mode yields in a state (R102 to R111). -/
def modeLoc (m : Mode) (s : State) : Loc :=
  match m with
  | .immediate v => .imm v
  | .accumulator => .acc
  | .zeroPage b => .mem (zext16 b)
  | .zeroPageX b => .mem (zext16 (b + s.x))
  | .zeroPageY b => .mem (zext16 (b + s.y))
  | .indexedIndirectX b => .mem (zpPointer s (b + s.x))
  | .indirectIndexedY b => .mem (zpPointer s b + zext16 s.y)
  | .absolute w => .mem w
  | .absoluteX w => .mem (w + zext16 s.x)
  | .absoluteY w => .mem (w + zext16 s.y)

/-- The transactions a mode's resolution issues: the pointer reads of the two indirect modes (R107, R108, R118). -/
def modeReads (m : Mode) (s : State) : List BusEvent :=
  match m with
  | .indexedIndirectX b => zpPointerReads s (b + s.x)
  | .indirectIndexedY b => zpPointerReads s b
  | _ => []

/-- The state after a mode's resolution. -/
def afterResolve (m : Mode) (s : State) : State := { s with bus := s.bus ++ modeReads m s }

/-- Whether a location can be read or written without a fault (R54, R306). -/
def locClaimed (c : Config) : Loc → Bool
  | .mem addr => claimed c addr
  | _ => true

/-- The byte of a location (R116). -/
def locByte (loc : Loc) (s : State) : Byte :=
  match loc with
  | .imm v => v
  | .acc => s.a
  | .mem addr => answer s addr

/-- The state after a location is read (R116). -/
def afterLocRead (loc : Loc) (s : State) : State :=
  match loc with
  | .mem addr => afterRead s addr
  | _ => s

/-- The state after a location is written (R117). -/
def afterLocWrite (loc : Loc) (v : Byte) (s : State) : State :=
  match loc with
  | .imm _ => s
  | .acc => { s with a := v }
  | .mem addr => afterWrite s addr v

/-- The operand byte of a mode in a state (R84, R116). -/
def operandByte (m : Mode) (s : State) : Byte := locByte (modeLoc m s) s

/-- Whether reading a mode's operand raises no fault (R54, R306). -/
def operandClaimed (m : Mode) (s : State) : Bool := locClaimed s.cfg (modeLoc m s)

/-- The state after the operand of a mode is resolved and read (R84, R116). -/
def afterOperand (m : Mode) (s : State) : State := afterLocRead (modeLoc m s) (afterResolve m s)

/-- The state after a mode's location is resolved, read, and written with a byte (R180). -/
def afterModify (m : Mode) (v : Byte) (s : State) : State := afterLocWrite (modeLoc m s) v (afterOperand m s)

/-- The state after a mode's location is resolved and written with a byte, not read (R133, R47). -/
def afterStore (m : Mode) (v : Byte) (s : State) : State := afterLocWrite (modeLoc m s) v (afterResolve m s)

/-- The addressing mode of an instruction that has one of the ten modes, with its operand (spec/opcode_table.json). -/
def instrMode : Instr → Option Mode
  | .aslAcc | .rolAcc | .lsrAcc | .rorAcc => some .accumulator
  | .oraImm v | .andImm v | .eorImm v | .adcImm v | .ldyImm v | .ldaImm v | .ldxImm v | .cpyImm v
  | .cmpImm v | .cpxImm v | .sbcImm v => some (.immediate v)
  | .oraZp b | .aslZp b | .andZp b | .bitZp b | .rolZp b | .eorZp b | .lsrZp b | .adcZp b
  | .rorZp b | .staZp b | .styZp b | .stxZp b | .ldyZp b | .ldaZp b | .ldxZp b | .cpyZp b
  | .cmpZp b | .decZp b | .cpxZp b | .sbcZp b | .incZp b => some (.zeroPage b)
  | .oraZpX b | .aslZpX b | .andZpX b | .rolZpX b | .eorZpX b | .lsrZpX b | .adcZpX b | .rorZpX b
  | .staZpX b | .styZpX b | .ldyZpX b | .ldaZpX b | .cmpZpX b | .decZpX b | .sbcZpX b | .incZpX b => some (.zeroPageX b)
  | .stxZpY b | .ldxZpY b => some (.zeroPageY b)
  | .oraIndX b | .andIndX b | .eorIndX b | .adcIndX b | .staIndX b | .ldaIndX b | .cmpIndX b | .sbcIndX b => some (.indexedIndirectX b)
  | .oraIndY b | .andIndY b | .eorIndY b | .adcIndY b | .staIndY b | .ldaIndY b | .cmpIndY b | .sbcIndY b => some (.indirectIndexedY b)
  | .oraAbs w | .aslAbs w | .andAbs w | .bitAbs w | .rolAbs w | .eorAbs w | .lsrAbs w | .adcAbs w
  | .rorAbs w | .staAbs w | .styAbs w | .stxAbs w | .ldyAbs w | .ldaAbs w | .ldxAbs w | .cpyAbs w
  | .cmpAbs w | .decAbs w | .cpxAbs w | .sbcAbs w | .incAbs w => some (.absolute w)
  | .oraAbsX w | .aslAbsX w | .andAbsX w | .rolAbsX w | .eorAbsX w | .lsrAbsX w | .adcAbsX w | .rorAbsX w
  | .staAbsX w | .ldyAbsX w | .ldaAbsX w | .cmpAbsX w | .decAbsX w | .sbcAbsX w | .incAbsX w => some (.absoluteX w)
  | .oraAbsY w | .andAbsY w | .eorAbsY w | .adcAbsY w | .staAbsY w | .ldaAbsY w | .ldxAbsY w | .cmpAbsY w
  | .sbcAbsY w => some (.absoluteY w)
  | .brk | .php | .bpl _ | .clc | .jsr _ | .plp | .bmi _ | .sec | .rti | .pha
  | .jmpAbs _ | .jmpInd _ | .bvc _ | .cli | .rts | .pla | .bvs _ | .sei | .dey | .txa
  | .bcc _ | .tya | .txs | .tay | .tax | .bcs _ | .clv | .tsx | .iny | .dex
  | .bne _ | .cld | .inx | .nop | .beq _ | .sed => none

end Sys2Proof.Machine
end

