-- ==== Sys2Proof/Safety.lean ====
section
/-! DEFINITION. The terms claims use: the states a step serves, the invariant of the machine, and what it means that a run
of one instruction left memory or registers alone. -/

namespace Sys2Proof.Machine

/-- The latch is clear, so a step request does something (R305). -/
def Running (s : State) : Prop := s.fault = none

/-- What a full latch says is so: the opcode it names is illegal and PC stands at it (R302), or the address it names is
unclaimed under the strict policy (R306). -/
def LatchTrue (s : State) : Prop :=
  match s.fault with
  | none => True
  | some (.illegalOpcode op pc0) => operandCount op = none ∧ pc0 = s.pc
  | some (.unmappedMemoryAccess addr _) => claimed s.cfg addr = false

/-- The parameters' arrays are in canonical form and within their sizes (R6, R49, R53). -/
def ConfigWf (c : Config) : Prop :=
  c.ramInit.wf = true ∧ c.ramInit.below ramBytes = true ∧
  c.prgRom.wf = true ∧ c.prgRom.below (prgRomBytes c.prgRomSize) = true ∧
  c.prgRamInit.wf = true ∧ c.prgRamInit.below (prgRamBytes c.prgRamSize) = true

/-- Both memories are in canonical form and within their sizes (R49, R53). -/
def MemoryWf (s : State) : Prop :=
  s.ram.wf = true ∧ s.ram.below ramBytes = true ∧
  s.prgRam.wf = true ∧ s.prgRam.below (prgRamBytes s.cfg.prgRamSize) = true

/-- The invariant of the machine: well-formed parameters and memories, a truthful latch, and no pending NMI without the
interrupt extension (R312). -/
def Invariant (s : State) : Prop :=
  ConfigWf s.cfg ∧ MemoryWf s ∧ LatchTrue s ∧ (s.cfg.hasIrqNmi = false → s.nmiPending = false)

/-- Every byte of memory reads as before. -/
def SameMemory (s t : State) : Prop := ∀ addr, peek t addr = peek s addr

/-- Every byte of memory but those behind one address reads as before: the arbiter may map several addresses to one byte
(R49, R53), so an address counts as outside when it is routed elsewhere. -/
def SameMemoryBut (addr : Addr) (s t : State) : Prop :=
  ∀ other, route s.cfg other ≠ route s.cfg addr → peek t other = peek s other

/-- What no instruction writes: the parameters, PRG ROM among them, the interrupt inputs and the pending NMI. -/
def SameOutside (s t : State) : Prop :=
  t.cfg = s.cfg ∧ t.irq = s.irq ∧ t.nmi = s.nmi ∧ t.nmiPending = s.nmiPending

/-- The six registers are as before (R302, R306, R308). -/
def SameRegisters (s t : State) : Prop :=
  t.a = s.a ∧ t.x = s.x ∧ t.y = s.y ∧ t.sp = s.sp ∧ t.p = s.p ∧ t.pc = s.pc

/-- The decode table gives a mnemonic exactly these opcodes, each with its form (R80, R119). -/
def Assigns (m : Mnemonic) (rows : List (Byte × Form)) : Prop :=
  ∀ op form, opcodeRow op = some (m, form) ↔ (op, form) ∈ rows

/-- The addressing form of a mode (R102 to R111). -/
def modeForm : Mode → Form
  | .immediate _ => .immediate
  | .accumulator => .accumulator
  | .zeroPage _ => .zeroPage
  | .zeroPageX _ => .zeroPageX
  | .zeroPageY _ => .zeroPageY
  | .indexedIndirectX _ => .indexedIndirectX
  | .indirectIndexedY _ => .indirectIndexedY
  | .absolute _ => .absolute
  | .absoluteX _ => .absoluteX
  | .absoluteY _ => .absoluteY

/-- The operand bytes a mode consumed, low byte first (R101 to R111). -/
def modeBytes : Mode → List Byte
  | .accumulator => []
  | .immediate b | .zeroPage b | .zeroPageX b | .zeroPageY b | .indexedIndirectX b | .indirectIndexedY b => [b]
  | .absolute w | .absoluteX w | .absoluteY w => [lowByte w, highByte w]

/-- An outcome with its next state, if it is one, changed. -/
def mapNext (f : State → State) : Host.Outcome State Fault Refusal → Host.Outcome State Fault Refusal
  | .next t => .next (f t)
  | .fault r => .fault r
  | .refused r => .refused r

/-- The state with the Decimal flag at a value (R29). -/
def withDecimal (d : Bool) (s : State) : State := { s with p := { s.p with d := d } }

/-- Bytes stand at consecutive addresses, each in an array of the block or in an absent cartridge's space that reads 0
(R70: byte k is at `wrap16(pc0 + k)`). -/
def HoldsAt : List Byte → Addr → State → Prop
  | [], _, _ => True
  | b :: rest, addr, s => peek s addr = some b ∧ HoldsAt rest (addr + 1) s

/-- The read transactions of bytes at consecutive addresses, in address order (R101). -/
def readsOf : List Byte → Addr → List BusEvent
  | [], _ => []
  | b :: rest, addr => .read addr b :: readsOf rest (addr + 1)

end Sys2Proof.Machine
end

