-- ==== Sys2Proof/Certificates/Slice0/Obligations.lean ====
section
/-! DEFINITION. The statements for the provers. Each docstring names the rules of spec/ it formalises; `pc0` of the spec is the
PC of the state a meaning runs at, and a transaction record `bus` is the model's own (log entry 5). -/

open Sys2Proof Sys2Proof.Machine

/-- O1. Decode and encode agree on all 151 instructions and every operand (R70, R80, R81). -/
def Obligations.DecodeOfEncode : Prop :=
  ∀ (i : Instr) (rest : List Byte), decode (encode i ++ rest) = .ok (i, rest)

/-- O2. Each byte list has one meaning (R77, R80, R82). -/
def Obligations.EncodeOfDecode : Prop :=
  ∀ (bytes rest : List Byte) (i : Instr), decode bytes = .ok (i, rest) → bytes = encode i ++ rest

/-- O3. The encoding part of R83 (with R72): group 3 and the 41 opcodes, and the single NOP. -/
def Obligations.IllegalOpcodesOfTable : Prop :=
  (∀ op : Byte, operandCount op = none ↔ op.extractLsb' 0 2 = 3 ∨ op ∈
      ([0x02, 0x04, 0x0C, 0x12, 0x14, 0x1A, 0x1C, 0x22, 0x32, 0x34, 0x3A, 0x3C, 0x42, 0x44,
        0x52, 0x54, 0x5A, 0x5C, 0x62, 0x64, 0x72, 0x74, 0x7A, 0x7C, 0x80, 0x82, 0x89, 0x92,
        0x9C, 0x9E, 0xB2, 0xC2, 0xD2, 0xD4, 0xDA, 0xDC, 0xE2, 0xF2, 0xF4, 0xFA, 0xFC] : List Byte)) ∧
  (∀ (op : Byte) (rest : List Byte), operandCount op = none → decode (op :: rest) = .error (.illegalOpcode op)) ∧
  Assigns .nop [(0xEA, .implied)]

/-- O4. A few words of the spec's examples (spec/95_test_vectors.md), decoded. -/
def Obligations.DecodedWordsOfSpec : Prop :=
  decode [0xA9, 0x2A] = .ok (.ldaImm 0x2A, []) ∧
  decode [0x4C, 0x34, 0x12] = .ok (.jmpAbs 0x1234, []) ∧
  decode [0x6C, 0xFF, 0x02] = .ok (.jmpInd 0x02FF, []) ∧
  decode [0x91, 0x40] = .ok (.staIndY 0x40, []) ∧
  decode [0xD0, 0xFE] = .ok (.bne 0xFE, []) ∧
  decode [0x96, 0xF0] = .ok (.stxZpY 0xF0, []) ∧
  decode [0x2A] = .ok (.rolAcc, []) ∧
  decode [0xEA] = .ok (.nop, []) ∧
  decode [0x00] = .ok (.brk, []) ∧
  decode [0x89, 0x10] = .error (.illegalOpcode 0x89)

/-- O5. The link between the statements about modes and the encoding (R70, R101, R119). -/
def Obligations.ModeMatchesEncoding : Prop :=
  ∀ i : Instr,
    (∀ m, instrMode i = some m →
      modeForm m = i.form ∧ modeLength m = instrLength i ∧ (encode i).length = instrLength i ∧
      ∃ op, encode i = op :: modeBytes m ∧ opcodeRow op = some (i.mnemonic, modeForm m)) ∧
    (instrMode i = none ↔ i.form ∈ ([.implied, .relative, .absoluteTarget, .indirectPointer] : List Form))

/-- O6. R49, zero page and stack page included. Rests on the spec's own decision D16 (spec/92_eei_decisions.md). -/
def Obligations.InternalRamIsMirrored : Prop :=
  (∀ (s : State) (addr : Addr) (v : Byte), addr < 0x2000 →
    (addr &&& 0x07FF).toNat < 2048 ∧
    memRead addr s = .ok (s.ram.read (addr &&& 0x07FF).toNat)
      (s.issue (.read addr (s.ram.read (addr &&& 0x07FF).toNat))) ∧
    memWrite addr v s = .ok () ({ s with ram := s.ram.write (addr &&& 0x07FF).toNat v }.issue (.write addr v))) ∧
  (∀ addr : Addr, addr < 0x0200 → addr &&& 0x07FF = addr) ∧
  (∀ c : Config, (powerOn c).ram = c.ramInit)

/-- O7. R50 and R51. The free byte is `Config.deviceAnswer` at the counter `draws` (log entry 4), which the read advances. Rests on the spec's own decision D26, D27 and D29 (spec/92_eei_decisions.md). -/
def Obligations.DeviceWindowsReachDevices : Prop :=
  (∀ (s : State) (addr : Addr) (v : Byte), 0x2000 ≤ addr → addr < 0x4000 →
    let r := DeviceReg.picture ((addr &&& 0x0007).setWidth 3)
    memRead addr s = .ok (Config.deviceAnswer s.draws r)
      ({ s with draws := s.draws + 1 }.issue (.read addr (Config.deviceAnswer s.draws r))) ∧
    memWrite addr v s = .ok () (s.issue (.write addr v)) ∧
    delivered s.cfg (.read addr v) = some (.asked r) ∧ delivered s.cfg (.write addr v) = some (.given r v)) ∧
  (∀ (s : State) (addr : Addr) (v : Byte), 0x4000 ≤ addr → addr < 0x4020 →
    let r := DeviceReg.audioIo ((addr - 0x4000).setWidth 5)
    memRead addr s = .ok (Config.deviceAnswer s.draws r)
      ({ s with draws := s.draws + 1 }.issue (.read addr (Config.deviceAnswer s.draws r))) ∧
    memWrite addr v s = .ok () (s.issue (.write addr v)) ∧
    delivered s.cfg (.read addr v) = some (.asked r) ∧ delivered s.cfg (.write addr v) = some (.given r v))

/-- O8. R52 and R53. Where the first clause asks for STRICT_UNMAPPED = false, the strict policy raises: `StrictPolicyRaises`. -/
def Obligations.CartridgeSpaceIsNrom : Prop :=
  (prgRamBytes .kib2 = 2048 ∧ prgRamBytes .kib4 = 4096 ∧ prgRomBytes .kib16 = 16384 ∧ prgRomBytes .kib32 = 32768) ∧
  ∀ (s : State) (addr : Addr) (v : Byte), 0x4020 ≤ addr →
    (s.cfg.strictUnmapped = false → s.cfg.cartPresent = false ∨ addr < 0x6000 →
      memRead addr s = .ok 0x00 (s.issue (.read addr 0x00)) ∧ memWrite addr v s = .ok () (s.issue (.write addr v))) ∧
    (s.cfg.cartPresent = true → 0x6000 ≤ addr → addr < 0x8000 →
      let k := (addr.toNat - 0x6000) % prgRamBytes s.cfg.prgRamSize
      memRead addr s = .ok (s.prgRam.read k) (s.issue (.read addr (s.prgRam.read k))) ∧
      memWrite addr v s = .ok () ({ s with prgRam := s.prgRam.write k v }.issue (.write addr v))) ∧
    (s.cfg.cartPresent = true → 0x8000 ≤ addr →
      let k := (addr.toNat - 0x8000) % prgRomBytes s.cfg.prgRomSize
      memRead addr s = .ok (s.cfg.prgRom.read k) (s.issue (.read addr (s.cfg.prgRom.read k))) ∧
      memWrite addr v s = .ok () (s.issue (.write addr v)) ∧
      (s.cfg.prgRomSize = .kib16 → 0xC000 ≤ addr → peek s addr = peek s (addr - 0x4000)))

/-- O9. R54, both policies. Rests on the spec's own decision D13 (spec/92_eei_decisions.md). -/
def Obligations.StrictPolicyRaises : Prop :=
  ∀ (s : State) (addr : Addr) (v : Byte),
    (claimed s.cfg addr = false ↔ s.cfg.strictUnmapped = true ∧
      ((s.cfg.cartPresent = false ∧ 0x4020 ≤ addr) ∨ (s.cfg.cartPresent = true ∧ 0x4020 ≤ addr ∧ addr ≤ 0x5FFF))) ∧
    (claimed s.cfg addr = false →
      memRead addr s = .error (.unmappedMemoryAccess addr .read) s ∧
      memWrite addr v s = .error (.unmappedMemoryAccess addr .write) s) ∧
    (claimed s.cfg addr = true →
      (∃ b t, memRead addr s = .ok b t) ∧ ∃ t, memWrite addr v s = .ok () t)

/-- O10. R60 and R62: no cache stands between a store and the next fetch. -/
def Obligations.WrittenByteReadsBack : Prop :=
  ∀ (s t : State) (addr other : Addr) (v : Byte), memWrite addr v s = .ok () t →
    let writable := (∃ k, route s.cfg addr = .ram k) ∨ ∃ k, route s.cfg addr = .prgRam k
    (writable ∧ route s.cfg other = route s.cfg addr → peek t other = some v) ∧
    (¬(writable ∧ route s.cfg other = route s.cfg addr) → peek t other = peek s other)

/-- O11. R42, R43 (decisions D7, D8, D9 of spec/92_eei_decisions.md). -/
def Obligations.TwoByteReads : Prop :=
  (∀ (s : State) (addr : Addr), claimed s.cfg addr = true → claimed s.cfg (addr + 1) = true →
    let lo := answer s addr
    let hi := answer (afterRead s addr) (addr + 1)
    read16 addr s = .ok ((hi.setWidth 16 <<< 8) ||| lo.setWidth 16) (afterRead (afterRead s addr) (addr + 1))) ∧
  (∀ (s : State) (p : Byte),
    let lo := s.ram.read p.toNat
    let hi := s.ram.read (p + 1).toNat
    read16zp p s = .ok ((hi.setWidth 16 <<< 8) ||| lo.setWidth 16)
      { s with bus := s.bus ++ [.read (p.setWidth 16) lo, .read ((p + 1).setWidth 16) hi] }) ∧
  (0xFFFF + 1 : Addr) = 0x0000

/-- O12. R56 to R59; cell 256 + S of internal RAM is the byte at 0x0100 + S (R49). -/
def Obligations.StackEngine : Prop :=
  ∀ (s : State) (v : Byte) (w : Addr),
    push v s = .ok () { s with
      ram := s.ram.write (0x0100 + s.sp.toNat) v
      sp := s.sp - 1
      bus := s.bus ++ [.write (0x0100 + s.sp.setWidth 16) v] } ∧
    pull s = .ok (s.ram.read (0x0100 + (s.sp + 1).toNat)) { s with
      sp := s.sp + 1
      bus := s.bus ++ [.read (0x0100 + (s.sp + 1).setWidth 16) (s.ram.read (0x0100 + (s.sp + 1).toNat))] } ∧
    (∃ t, (push v >>= fun _ => pull) s = .ok v t ∧ t.sp = s.sp) ∧
    push16 w s = (push (highByte w) >>= fun _ => push (lowByte w)) s ∧
    (∃ t, (push16 w >>= fun _ => pull16) s = .ok w t ∧ t.sp = s.sp) ∧
    (s.sp = 0x00 → ∃ t, push v s = .ok () t ∧ t.sp = 0xFF ∧ peek t 0x0100 = some v) ∧
    (s.sp = 0xFF → ∃ t, pull s = .ok (s.ram.read 0x0100) t ∧ t.sp = 0x00)

/-- O13. R102 to R111 and R118, the operand bytes being consumed by the fetch. -/
def Obligations.AddressOfEachMode : Prop :=
  ∀ (s : State) (b : Byte) (w : Addr),
    resolve (.immediate b) s = .ok (.imm b) s ∧
    resolve .accumulator s = .ok .acc s ∧
    resolve (.zeroPage b) s = .ok (.mem (b.setWidth 16)) s ∧
    resolve (.zeroPageX b) s = .ok (.mem ((b + s.x).setWidth 16)) s ∧
    resolve (.zeroPageY b) s = .ok (.mem ((b + s.y).setWidth 16)) s ∧
    (let p := b + s.x
     resolve (.indexedIndirectX b) s =
      .ok (.mem (joinBytes (s.ram.read (p + 1).toNat) (s.ram.read p.toNat)))
        { s with bus := s.bus ++ [.read (p.setWidth 16) (s.ram.read p.toNat),
            .read ((p + 1).setWidth 16) (s.ram.read (p + 1).toNat)] }) ∧
    resolve (.indirectIndexedY b) s =
      .ok (.mem (joinBytes (s.ram.read (b + 1).toNat) (s.ram.read b.toNat) + s.y.setWidth 16))
        { s with bus := s.bus ++ [.read (b.setWidth 16) (s.ram.read b.toNat),
            .read ((b + 1).setWidth 16) (s.ram.read (b + 1).toNat)] } ∧
    resolve (.absolute w) s = .ok (.mem w) s ∧
    resolve (.absoluteX w) s = .ok (.mem (w + s.x.setWidth 16)) s ∧
    resolve (.absoluteY w) s = .ok (.mem (w + s.y.setWidth 16)) s

/-- O14. R116 and R117. -/
def Obligations.ReadingAndWritingLocations : Prop :=
  (∀ (s : State) (v : Byte) (addr : Addr),
    readLoc (.imm v) s = .ok v s ∧ readLoc .acc s = .ok s.a s ∧ readLoc (.mem addr) s = memRead addr s ∧
    writeLoc .acc v s = .ok () { s with a := v } ∧ writeLoc (.mem addr) v s = memWrite addr v s) ∧
  (∀ (i : Instr) (v : Byte), instrMode i = some (.immediate v) →
    i.mnemonic ∉ ([.sta, .stx, .sty, .asl, .lsr, .rol, .ror, .inc, .dec] : List Mnemonic))

/-- O15. R130 to R132. This is also where every load completes. -/
def Obligations.LoadsReadTheirOperand : Prop :=
  Assigns .lda
      [(0xA1, .indexedIndirectX), (0xA5, .zeroPage), (0xA9, .immediate), (0xAD, .absolute),
      (0xB1, .indirectIndexedY), (0xB5, .zeroPageX), (0xB9, .absoluteY), (0xBD, .absoluteX)] ∧
  Assigns .ldx
      [(0xA2, .immediate), (0xA6, .zeroPage), (0xAE, .absolute), (0xB6, .zeroPageY),
      (0xBE, .absoluteY)] ∧
  Assigns .ldy
      [(0xA0, .immediate), (0xA4, .zeroPage), (0xAC, .absolute), (0xB4, .zeroPageX),
      (0xBC, .absoluteX)] ∧
  ∀ (i : Instr) (s : State), i.mnemonic ∈ ([.lda, .ldx, .ldy] : List Mnemonic) →
    ∃ m, instrMode i = some m ∧ (operandClaimed m s = true →
      (i.mnemonic = .lda → let v := operandByte m s
        exec i s = .next { afterOperand m s with
        a := v
        p := { s.p with z := v == 0, n := v.getLsbD 7 }
        pc := s.pc + BitVec.ofNat 16 (instrLength i) }) ∧
      (i.mnemonic = .ldx → let v := operandByte m s
        exec i s = .next { afterOperand m s with
        x := v
        p := { s.p with z := v == 0, n := v.getLsbD 7 }
        pc := s.pc + BitVec.ofNat 16 (instrLength i) }) ∧
      (i.mnemonic = .ldy → let v := operandByte m s
        exec i s = .next { afterOperand m s with
        y := v
        p := { s.p with z := v == 0, n := v.getLsbD 7 }
        pc := s.pc + BitVec.ofNat 16 (instrLength i) }))

/-- O16. R133 to R135, with R47 for the transactions. This is also where every store completes. -/
def Obligations.StoresWriteTheirRegister : Prop :=
  Assigns .sta
      [(0x81, .indexedIndirectX), (0x85, .zeroPage), (0x8D, .absolute), (0x91, .indirectIndexedY),
      (0x95, .zeroPageX), (0x99, .absoluteY), (0x9D, .absoluteX)] ∧
  Assigns .stx
      [(0x86, .zeroPage), (0x8E, .absolute), (0x96, .zeroPageY)] ∧
  Assigns .sty
      [(0x84, .zeroPage), (0x8C, .absolute), (0x94, .zeroPageX)] ∧
  ∀ (i : Instr) (s : State), i.mnemonic ∈ ([.sta, .stx, .sty] : List Mnemonic) →
    ∃ m, instrMode i = some m ∧ (operandClaimed m s = true →
      (i.mnemonic = .sta → exec i s = .next { afterStore m s.a s with pc := s.pc + BitVec.ofNat 16 (instrLength i) }) ∧
      (i.mnemonic = .stx → exec i s = .next { afterStore m s.x s with pc := s.pc + BitVec.ofNat 16 (instrLength i) }) ∧
      (i.mnemonic = .sty → exec i s = .next { afterStore m s.y s with pc := s.pc + BitVec.ofNat 16 (instrLength i) }) ∧
      (∀ v, ∃ addr, modeLoc m s = .mem addr ∧
        (afterStore m v s).bus = s.bus ++ modeReads m s ++ [.write addr v]))

/-- O17. R150 to R152. -/
def Obligations.LogicalOperations : Prop :=
  Assigns .ora
      [(0x01, .indexedIndirectX), (0x05, .zeroPage), (0x09, .immediate), (0x0D, .absolute),
      (0x11, .indirectIndexedY), (0x15, .zeroPageX), (0x19, .absoluteY), (0x1D, .absoluteX)] ∧
  Assigns .and
      [(0x21, .indexedIndirectX), (0x25, .zeroPage), (0x29, .immediate), (0x2D, .absolute),
      (0x31, .indirectIndexedY), (0x35, .zeroPageX), (0x39, .absoluteY), (0x3D, .absoluteX)] ∧
  Assigns .eor
      [(0x41, .indexedIndirectX), (0x45, .zeroPage), (0x49, .immediate), (0x4D, .absolute),
      (0x51, .indirectIndexedY), (0x55, .zeroPageX), (0x59, .absoluteY), (0x5D, .absoluteX)] ∧
  ∀ (i : Instr) (s : State), i.mnemonic ∈ ([.ora, .and, .eor] : List Mnemonic) →
    ∃ m, instrMode i = some m ∧ (operandClaimed m s = true →
      (i.mnemonic = .ora → let r := s.a ||| operandByte m s
        exec i s = .next { afterOperand m s with
        a := r
        p := { s.p with z := r == 0, n := r.getLsbD 7 }
        pc := s.pc + BitVec.ofNat 16 (instrLength i) }) ∧
      (i.mnemonic = .and → let r := s.a &&& operandByte m s
        exec i s = .next { afterOperand m s with
        a := r
        p := { s.p with z := r == 0, n := r.getLsbD 7 }
        pc := s.pc + BitVec.ofNat 16 (instrLength i) }) ∧
      (i.mnemonic = .eor → let r := s.a ^^^ operandByte m s
        exec i s = .next { afterOperand m s with
        a := r
        p := { s.p with z := r == 0, n := r.getLsbD 7 }
        pc := s.pc + BitVec.ofNat 16 (instrLength i) }))

/-- O18. R153, for every value of D. -/
def Obligations.AddWithCarry : Prop :=
  Assigns .adc
      [(0x61, .indexedIndirectX), (0x65, .zeroPage), (0x69, .immediate), (0x6D, .absolute),
      (0x71, .indirectIndexedY), (0x75, .zeroPageX), (0x79, .absoluteY), (0x7D, .absoluteX)] ∧
  ∀ (i : Instr) (s : State), i.mnemonic = .adc → ∃ m, instrMode i = some m ∧
    let v := operandByte m s
    let sum := s.a.toNat + v.toNat + s.p.c.toNat
    let r := BitVec.ofNat 8 sum
    let overflow := (s.a.getLsbD 7 == v.getLsbD 7) && (r.getLsbD 7 != s.a.getLsbD 7)
    (operandClaimed m s = true → exec i s = .next { afterOperand m s with
      a := r
      p := { s.p with c := decide (sum > 255), v := overflow, z := r == 0, n := r.getLsbD 7 }
      pc := s.pc + BitVec.ofNat 16 (instrLength i) }) ∧
    (overflow = true ↔ ((s.a ^^^ r) &&& (v ^^^ r) &&& 0x80) ≠ 0)

/-- O19. R154, with its equivalence as an inequality of integers. -/
def Obligations.SubtractWithBorrow : Prop :=
  Assigns .sbc
      [(0xE1, .indexedIndirectX), (0xE5, .zeroPage), (0xE9, .immediate), (0xED, .absolute),
      (0xF1, .indirectIndexedY), (0xF5, .zeroPageX), (0xF9, .absoluteY), (0xFD, .absoluteX)] ∧
  ∀ (i : Instr) (s : State), i.mnemonic = .sbc → ∃ m, instrMode i = some m ∧
    let v := operandByte m s
    let v' := 0xFF - v
    let sum := s.a.toNat + v'.toNat + s.p.c.toNat
    let r := BitVec.ofNat 8 sum
    (operandClaimed m s = true → exec i s = .next { afterOperand m s with
      a := r
      p := { s.p with
        c := decide (sum > 255)
        v := (s.a.getLsbD 7 == v'.getLsbD 7) && (r.getLsbD 7 != s.a.getLsbD 7)
        z := r == 0
        n := r.getLsbD 7 }
      pc := s.pc + BitVec.ofNat 16 (instrLength i) }) ∧
    (sum > 255 ↔ (0 : Int) ≤ s.a.toNat - v.toNat - (1 - s.p.c.toNat)) ∧
    r = s.a - v - BitVec.ofNat 8 (1 - s.p.c.toNat)

/-- O20. R155 to R157, N from the subtraction (90_conflicts.md C2). -/
def Obligations.Compares : Prop :=
  Assigns .cmp
      [(0xC1, .indexedIndirectX), (0xC5, .zeroPage), (0xC9, .immediate), (0xCD, .absolute),
      (0xD1, .indirectIndexedY), (0xD5, .zeroPageX), (0xD9, .absoluteY), (0xDD, .absoluteX)] ∧
  Assigns .cpx
      [(0xE0, .immediate), (0xE4, .zeroPage), (0xEC, .absolute)] ∧
  Assigns .cpy
      [(0xC0, .immediate), (0xC4, .zeroPage), (0xCC, .absolute)] ∧
  ∀ (i : Instr) (s : State), i.mnemonic ∈ ([.cmp, .cpx, .cpy] : List Mnemonic) →
    ∃ m, instrMode i = some m ∧ (operandClaimed m s = true →
      (i.mnemonic = .cmp → let v := operandByte m s
        exec i s = .next { afterOperand m s with
        p := { s.p with c := decide (v.toNat ≤ s.a.toNat), z := s.a == v, n := (s.a - v).getLsbD 7 }
        pc := s.pc + BitVec.ofNat 16 (instrLength i) }) ∧
      (i.mnemonic = .cpx → let v := operandByte m s
        exec i s = .next { afterOperand m s with
        p := { s.p with c := decide (v.toNat ≤ s.x.toNat), z := s.x == v, n := (s.x - v).getLsbD 7 }
        pc := s.pc + BitVec.ofNat 16 (instrLength i) }) ∧
      (i.mnemonic = .cpy → let v := operandByte m s
        exec i s = .next { afterOperand m s with
        p := { s.p with c := decide (v.toNat ≤ s.y.toNat), z := s.y == v, n := (s.y - v).getLsbD 7 }
        pc := s.pc + BitVec.ofNat 16 (instrLength i) }))

/-- O21. R158. -/
def Obligations.BitTest : Prop :=
  Assigns .bit
      [(0x24, .zeroPage), (0x2C, .absolute)] ∧
  ∀ (i : Instr) (s : State), i.mnemonic ∈ ([.bit] : List Mnemonic) →
    ∃ m, instrMode i = some m ∧ (operandClaimed m s = true →
      (i.mnemonic = .bit → let v := operandByte m s
        exec i s = .next { afterOperand m s with
        p := { s.p with z := (s.a &&& v) == 0, v := v.getLsbD 6, n := v.getLsbD 7 }
        pc := s.pc + BitVec.ofNat 16 (instrLength i) }))

/-- O22. R181 to R184, with R180's one read and one write. -/
def Obligations.ShiftsAndRotates : Prop :=
  Assigns .asl
      [(0x06, .zeroPage), (0x0A, .accumulator), (0x0E, .absolute), (0x16, .zeroPageX),
      (0x1E, .absoluteX)] ∧
  Assigns .lsr
      [(0x46, .zeroPage), (0x4A, .accumulator), (0x4E, .absolute), (0x56, .zeroPageX),
      (0x5E, .absoluteX)] ∧
  Assigns .rol
      [(0x26, .zeroPage), (0x2A, .accumulator), (0x2E, .absolute), (0x36, .zeroPageX),
      (0x3E, .absoluteX)] ∧
  Assigns .ror
      [(0x66, .zeroPage), (0x6A, .accumulator), (0x6E, .absolute), (0x76, .zeroPageX),
      (0x7E, .absoluteX)] ∧
  ∀ (i : Instr) (s : State), i.mnemonic ∈ ([.asl, .lsr, .rol, .ror] : List Mnemonic) →
    ∃ m, instrMode i = some m ∧ (operandClaimed m s = true →
      (i.mnemonic = .asl → let v := operandByte m s
        let r := v <<< 1
        exec i s = .next { afterModify m r s with
        p := { s.p with c := v.getLsbD 7, z := r == 0, n := r.getLsbD 7 }
        pc := s.pc + BitVec.ofNat 16 (instrLength i) }) ∧
      (i.mnemonic = .lsr → let v := operandByte m s
        let r := v >>> 1
        exec i s = .next { afterModify m r s with
        p := { s.p with c := v.getLsbD 0, z := r == 0, n := r.getLsbD 7 }
        pc := s.pc + BitVec.ofNat 16 (instrLength i) }) ∧
      (i.mnemonic = .rol → let v := operandByte m s
        let r := (v <<< 1) ||| (if s.p.c then 1 else 0 : Byte)
        exec i s = .next { afterModify m r s with
        p := { s.p with c := v.getLsbD 7, z := r == 0, n := r.getLsbD 7 }
        pc := s.pc + BitVec.ofNat 16 (instrLength i) }) ∧
      (i.mnemonic = .ror → let v := operandByte m s
        let r := (v >>> 1) ||| ((if s.p.c then 1 else 0 : Byte) <<< 7)
        exec i s = .next { afterModify m r s with
        p := { s.p with c := v.getLsbD 0, z := r == 0, n := r.getLsbD 7 }
        pc := s.pc + BitVec.ofNat 16 (instrLength i) }) ∧
      (∀ v addr, modeLoc m s = .mem addr →
        (afterModify m v s).bus = s.bus ++ modeReads m s ++ [.read addr (operandByte m s), .write addr v]))

/-- O23. R185 and R186. -/
def Obligations.IncrementAndDecrementMemory : Prop :=
  Assigns .inc
      [(0xE6, .zeroPage), (0xEE, .absolute), (0xF6, .zeroPageX), (0xFE, .absoluteX)] ∧
  Assigns .dec
      [(0xC6, .zeroPage), (0xCE, .absolute), (0xD6, .zeroPageX), (0xDE, .absoluteX)] ∧
  ∀ (i : Instr) (s : State), i.mnemonic ∈ ([.inc, .dec] : List Mnemonic) →
    ∃ m, instrMode i = some m ∧ (operandClaimed m s = true →
      (i.mnemonic = .inc → let v := operandByte m s
        let r := v + 1
        exec i s = .next { afterModify m r s with
        p := { s.p with z := r == 0, n := r.getLsbD 7 }
        pc := s.pc + BitVec.ofNat 16 (instrLength i) }) ∧
      (i.mnemonic = .dec → let v := operandByte m s
        let r := v - 1
        exec i s = .next { afterModify m r s with
        p := { s.p with z := r == 0, n := r.getLsbD 7 }
        pc := s.pc + BitVec.ofNat 16 (instrLength i) }) ∧
      (∀ v addr, modeLoc m s = .mem addr →
        (afterModify m v s).bus = s.bus ++ modeReads m s ++ [.read addr (operandByte m s), .write addr v]))

/-- O24. R187 to R190. -/
def Obligations.IndexIncrementAndDecrement : Prop :=
  Assigns .inx
      [(0xE8, .implied)] ∧
  Assigns .iny
      [(0xC8, .implied)] ∧
  Assigns .dex
      [(0xCA, .implied)] ∧
  Assigns .dey
      [(0x88, .implied)] ∧
  ∀ s : State,
    exec .inx s = .next { s with
      x := s.x + 1, p := { s.p with z := (s.x + 1) == 0, n := (s.x + 1).getLsbD 7 }, pc := s.pc + 1 } ∧
    exec .iny s = .next { s with
      y := s.y + 1, p := { s.p with z := (s.y + 1) == 0, n := (s.y + 1).getLsbD 7 }, pc := s.pc + 1 } ∧
    exec .dex s = .next { s with
      x := s.x - 1, p := { s.p with z := (s.x - 1) == 0, n := (s.x - 1).getLsbD 7 }, pc := s.pc + 1 } ∧
    exec .dey s = .next { s with
      y := s.y - 1, p := { s.p with z := (s.y - 1) == 0, n := (s.y - 1).getLsbD 7 }, pc := s.pc + 1 }

/-- O25. R200. -/
def Obligations.JumpAbsolute : Prop :=
  ∀ (s : State) (target : Addr),
    encode (.jmpAbs target) = [0x4C, lowByte target, highByte target] ∧ exec (.jmpAbs target) s = .next { s with pc := target }

/-- O26. R201, the page-boundary rule. -/
def Obligations.JumpIndirect : Prop :=
  ∀ (s : State) (p : Addr),
    let q := if lowByte p = 0xFF then p - 0xFF else p + 1
    encode (.jmpInd p) = [0x6C, lowByte p, highByte p] ∧
    (p &&& 0xFF00) ||| (lowByte p + 1).setWidth 16 = q ∧
    (claimed s.cfg p = true → claimed s.cfg q = true →
      exec (.jmpInd p) s = .next { afterRead (afterRead s p) q with
        pc := joinBytes (answer (afterRead s p) q) (answer s p) }) ∧
    (lowByte p ≠ 0xFF → claimed s.cfg p = true → claimed s.cfg q = true →
      ∃ w t, read16 p s = .ok w t ∧ exec (.jmpInd p) s = .next { t with pc := w })

/-- O27. R202; the stack cells are 256 + S (R49), and S wraps silently. Rests on the spec's own decision D10 and D25 (spec/92_eei_decisions.md). -/
def Obligations.JumpToSubroutine : Prop :=
  ∀ (s : State) (target : Addr),
    let ret := s.pc + 2
    encode (.jsr target) = [0x20, lowByte target, highByte target] ∧
    exec (.jsr target) s = .next { s with
      ram := (s.ram.write (0x0100 + s.sp.toNat) (highByte ret)).write (0x0100 + (s.sp - 1).toNat) (lowByte ret)
      sp := s.sp - 2
      pc := target
      bus := s.bus ++ [.write (0x0100 + s.sp.setWidth 16) (highByte ret),
        .write (0x0100 + (s.sp - 1).setWidth 16) (lowByte ret)] }

/-- O28. R203. -/
def Obligations.ReturnFromSubroutine : Prop :=
  Assigns .rts [(0x60, .implied)] ∧
  ∀ s : State,
    let lo := s.ram.read (0x0100 + (s.sp + 1).toNat)
    let hi := s.ram.read (0x0100 + (s.sp + 2).toNat)
    exec .rts s = .next { s with
      sp := s.sp + 2
      pc := joinBytes hi lo + 1
      bus := s.bus ++ [.read (0x0100 + (s.sp + 1).setWidth 16) lo, .read (0x0100 + (s.sp + 2).setWidth 16) hi] }

/-- O29. R204 with R27. Rests on the spec's own decision D21 (spec/92_eei_decisions.md). -/
def Obligations.ReturnFromInterrupt : Prop :=
  Assigns .rti [(0x40, .implied)] ∧
  ∀ s : State,
    let b := s.ram.read (0x0100 + (s.sp + 1).toNat)
    let lo := s.ram.read (0x0100 + (s.sp + 2).toNat)
    let hi := s.ram.read (0x0100 + (s.sp + 3).toNat)
    exec .rti s = .next { s with
      p := { c := b.getLsbD 0, z := b.getLsbD 1, i := b.getLsbD 2, d := b.getLsbD 3, v := b.getLsbD 6, n := b.getLsbD 7 }
      sp := s.sp + 3
      pc := joinBytes hi lo
      bus := s.bus ++ [.read (0x0100 + (s.sp + 1).setWidth 16) b, .read (0x0100 + (s.sp + 2).setWidth 16) lo,
        .read (0x0100 + (s.sp + 3).setWidth 16) hi] }

/-- O30. R205: the shared entry of a handler. Rests on the spec's own decision D5, D6, D23 and D25 (spec/92_eei_decisions.md). -/
def Obligations.BreakEntersHandler : Prop :=
  Assigns .brk [(0x00, .implied)] ∧
  (∀ p : Status, statusByte p true = BitVec.ofNat 8
    (p.n.toNat * 128 + p.v.toNat * 64 + 32 + 16 + p.d.toNat * 8 + p.i.toNat * 4 + p.z.toNat * 2 + p.c.toNat)) ∧
  ∀ s : State,
    let ret := s.pc + 2
    let pushed := ((s.ram.write (0x0100 + s.sp.toNat) (highByte ret)).write (0x0100 + (s.sp - 1).toNat)
      (lowByte ret)).write (0x0100 + (s.sp - 2).toNat) (statusByte s.p true)
    let pushes := [BusEvent.write (0x0100 + s.sp.setWidth 16) (highByte ret),
      .write (0x0100 + (s.sp - 1).setWidth 16) (lowByte ret), .write (0x0100 + (s.sp - 2).setWidth 16) (statusByte s.p true)]
    (∀ lo hi, peek s 0xFFFE = some lo → peek s 0xFFFF = some hi →
      exec .brk s = .next { s with
        ram := pushed
        sp := s.sp - 3
        p := { s.p with i := true }
        pc := joinBytes hi lo
        bus := s.bus ++ pushes ++ [.read 0xFFFE lo, .read 0xFFFF hi] }) ∧
    (s.cfg.cartPresent = false → s.cfg.strictUnmapped = false → peek s 0xFFFE = some 0x00 ∧ peek s 0xFFFF = some 0x00) ∧
    (s.cfg.cartPresent = false → s.cfg.strictUnmapped = true →
      exec .brk s = .next { s with
        ram := pushed
        fault := some (.unmappedMemoryAccess 0xFFFE .read)
        bus := s.bus ++ pushes })

/-- O31. R206 to R214 with R78; `sext_16` as R8 writes it. -/
def Obligations.Branches : Prop :=
  Assigns .bpl
      [(0x10, .relative)] ∧
  Assigns .bmi
      [(0x30, .relative)] ∧
  Assigns .bvc
      [(0x50, .relative)] ∧
  Assigns .bvs
      [(0x70, .relative)] ∧
  Assigns .bcc
      [(0x90, .relative)] ∧
  Assigns .bcs
      [(0xB0, .relative)] ∧
  Assigns .bne
      [(0xD0, .relative)] ∧
  Assigns .beq
      [(0xF0, .relative)] ∧
  ∀ (s : State) (d : Byte),
    let taken := s.pc + 2 + (if d.getLsbD 7 then d.setWidth 16 + 0xFF00 else d.setWidth 16)
    exec (.bpl d) s = .next { s with pc := if s.p.n = false then taken else s.pc + 2 } ∧
    exec (.bmi d) s = .next { s with pc := if s.p.n = true then taken else s.pc + 2 } ∧
    exec (.bvc d) s = .next { s with pc := if s.p.v = false then taken else s.pc + 2 } ∧
    exec (.bvs d) s = .next { s with pc := if s.p.v = true then taken else s.pc + 2 } ∧
    exec (.bcc d) s = .next { s with pc := if s.p.c = false then taken else s.pc + 2 } ∧
    exec (.bcs d) s = .next { s with pc := if s.p.c = true then taken else s.pc + 2 } ∧
    exec (.bne d) s = .next { s with pc := if s.p.z = false then taken else s.pc + 2 } ∧
    exec (.beq d) s = .next { s with pc := if s.p.z = true then taken else s.pc + 2 }

/-- O32. R230 and R232 with R26. Rests on the spec's own decision D5 (bits 5 and 4 of the byte) (spec/92_eei_decisions.md). -/
def Obligations.PushInstructions : Prop :=
  Assigns .pha [(0x48, .implied)] ∧ Assigns .php [(0x08, .implied)] ∧
  ∀ s : State,
    let status : Byte := BitVec.ofNat 8 (s.p.n.toNat * 128 + s.p.v.toNat * 64 + 32 + 16 + s.p.d.toNat * 8 +
      s.p.i.toNat * 4 + s.p.z.toNat * 2 + s.p.c.toNat)
    exec .pha s = .next { s with
      ram := s.ram.write (0x0100 + s.sp.toNat) s.a
      sp := s.sp - 1
      pc := s.pc + 1
      bus := s.bus ++ [.write (0x0100 + s.sp.setWidth 16) s.a] } ∧
    exec .php s = .next { s with
      ram := s.ram.write (0x0100 + s.sp.toNat) status
      sp := s.sp - 1
      pc := s.pc + 1
      bus := s.bus ++ [.write (0x0100 + s.sp.setWidth 16) status] }

/-- O33. R231 and R233 with R27. Rests on the spec's own decision D5 (bits 5 and 4 of the byte) (spec/92_eei_decisions.md). -/
def Obligations.PullInstructions : Prop :=
  Assigns .pla [(0x68, .implied)] ∧ Assigns .plp [(0x28, .implied)] ∧
  (∀ s : State,
    let b := s.ram.read (0x0100 + (s.sp + 1).toNat)
    exec .pla s = .next { s with
      a := b
      p := { s.p with z := b == 0, n := b.getLsbD 7 }
      sp := s.sp + 1
      pc := s.pc + 1
      bus := s.bus ++ [.read (0x0100 + (s.sp + 1).setWidth 16) b] } ∧
    exec .plp s = .next { s with
      p := { c := b.getLsbD 0, z := b.getLsbD 1, i := b.getLsbD 2, d := b.getLsbD 3, v := b.getLsbD 6, n := b.getLsbD 7 }
      sp := s.sp + 1
      pc := s.pc + 1
      bus := s.bus ++ [.read (0x0100 + (s.sp + 1).setWidth 16) b] }) ∧
  (∀ s : State, ∃ t u, exec .php s = .next t ∧ exec .plp t = .next u ∧ u.p = s.p ∧ u.sp = s.sp)

/-- O34. R234 to R239. -/
def Obligations.RegisterTransfers : Prop :=
  Assigns .tax
      [(0xAA, .implied)] ∧
  Assigns .txa
      [(0x8A, .implied)] ∧
  Assigns .tay
      [(0xA8, .implied)] ∧
  Assigns .tya
      [(0x98, .implied)] ∧
  Assigns .tsx
      [(0xBA, .implied)] ∧
  Assigns .txs
      [(0x9A, .implied)] ∧
  ∀ s : State,
    exec .tax s = .next { s with x := s.a, p := { s.p with z := s.a == 0, n := s.a.getLsbD 7 }, pc := s.pc + 1 } ∧
    exec .txa s = .next { s with a := s.x, p := { s.p with z := s.x == 0, n := s.x.getLsbD 7 }, pc := s.pc + 1 } ∧
    exec .tay s = .next { s with y := s.a, p := { s.p with z := s.a == 0, n := s.a.getLsbD 7 }, pc := s.pc + 1 } ∧
    exec .tya s = .next { s with a := s.y, p := { s.p with z := s.y == 0, n := s.y.getLsbD 7 }, pc := s.pc + 1 } ∧
    exec .tsx s = .next { s with x := s.sp, p := { s.p with z := s.sp == 0, n := s.sp.getLsbD 7 }, pc := s.pc + 1 } ∧
    exec .txs s = .next { s with sp := s.x, pc := s.pc + 1 }

/-- O35. R240 to R246, the corner cases of R244 and R246 among them. -/
def Obligations.FlagInstructions : Prop :=
  Assigns .clc
      [(0x18, .implied)] ∧
  Assigns .sec
      [(0x38, .implied)] ∧
  Assigns .cli
      [(0x58, .implied)] ∧
  Assigns .sei
      [(0x78, .implied)] ∧
  Assigns .clv
      [(0xB8, .implied)] ∧
  Assigns .cld
      [(0xD8, .implied)] ∧
  Assigns .sed
      [(0xF8, .implied)] ∧
  (∀ s : State,
    exec .clc s = .next { s with p := { s.p with c := false }, pc := s.pc + 1 } ∧
    exec .sec s = .next { s with p := { s.p with c := true }, pc := s.pc + 1 } ∧
    exec .cli s = .next { s with p := { s.p with i := false }, pc := s.pc + 1 } ∧
    exec .sei s = .next { s with p := { s.p with i := true }, pc := s.pc + 1 } ∧
    exec .clv s = .next { s with p := { s.p with v := false }, pc := s.pc + 1 } ∧
    exec .cld s = .next { s with p := { s.p with d := false }, pc := s.pc + 1 } ∧
    exec .sed s = .next { s with p := { s.p with d := true }, pc := s.pc + 1 }) ∧
  (∀ (i : Instr) (s t : State), exec i s = .next t → s.p.v = false → t.p.v = true →
    i.mnemonic ∈ ([.adc, .sbc, .bit, .plp, .rti] : List Mnemonic)) ∧
  (∀ (i : Instr) (m : Mode) (s t : State), exec .sed s = .next t → instrMode i = some m → operandClaimed m t = true →
    (i.mnemonic = .adc → ∃ u, exec i t = .next u ∧
      u.a = t.a + operandByte m t + BitVec.ofNat 8 t.p.c.toNat) ∧
    (i.mnemonic = .sbc → ∃ u, exec i t = .next u ∧
      u.a = t.a - operandByte m t - BitVec.ofNat 8 (1 - t.p.c.toNat)))

/-- O36. R247. -/
def Obligations.NoOperation : Prop :=
  Assigns .nop [(0xEA, .implied)] ∧
  (∀ s : State, exec .nop s = .next { s with pc := s.pc + 1 }) ∧
  (∀ s : State, Running s → acceptedInterrupt s = none → peek s s.pc = some 0xEA →
    step s = .next { s with pc := s.pc + 1, bus := [.read s.pc 0xEA] })

/-- O37. R306 and R307 for an instruction's own accesses: where these forms trap. -/
def Obligations.UnclaimedAccessTraps : Prop :=
  (∀ (i : Instr) (m : Mode) (s : State) (addr : Addr), instrMode i = some m → modeLoc m s = .mem addr →
    claimed s.cfg addr = false →
    exec i s = .next { s with
      fault := some (.unmappedMemoryAccess addr
        (if i.mnemonic ∈ ([.sta, .stx, .sty] : List Mnemonic) then .write else .read))
      bus := s.bus ++ modeReads m s }) ∧
  (∀ (s : State) (p : Addr),
    let q := joinBytes (highByte p) (lowByte p + 1)
    (claimed s.cfg p = false →
      exec (.jmpInd p) s = .next { s with fault := some (.unmappedMemoryAccess p .read) }) ∧
    (claimed s.cfg p = true → claimed s.cfg q = false →
      exec (.jmpInd p) s = .next { afterRead s p with fault := some (.unmappedMemoryAccess q .read) }))

/-- O38. R301 and R302, for every byte the fetch answers, a device's among them. Rests on the spec's own decision D3 and D4 (spec/92_eei_decisions.md). -/
def Obligations.IllegalOpcodeIsLatched : Prop :=
  ∀ s : State, Running s → acceptedInterrupt s = none → claimed s.cfg s.pc = true →
    operandCount (answer s s.pc) = none →
    step s = .next { afterRead (beginRequest s) s.pc with fault := some (.illegalOpcode (answer s s.pc) s.pc) }

/-- O39. R301, R306 and R307 for the fetch, byte by byte (R101). A claimed address before an unclaimed one is 0x401F, and PC is then there or at 0x401E: both are device registers, so the opcode is a free value (log entry 4) and each clause states what follows for every value of it. -/
def Obligations.UnclaimedFetchIsLatched : Prop :=
  ∀ s : State, Running s → acceptedInterrupt s = none →
    (claimed s.cfg s.pc = false →
      step s = .next { s with fault := some (.unmappedMemoryAccess s.pc .read), bus := [] }) ∧
    (claimed s.cfg s.pc = true → claimed s.cfg (s.pc + 1) = false →
      let t := afterRead (beginRequest s) s.pc
      match operandCount (answer s s.pc) with
      | none => step s = .next { t with fault := some (.illegalOpcode (answer s s.pc) s.pc) }
      | some 0 => ∃ i, decode [answer s s.pc] = .ok (i, []) ∧ step s = exec i t
      | some (_ + 1) => step s = .next { t with fault := some (.unmappedMemoryAccess (s.pc + 1) .read) }) ∧
    (claimed s.cfg s.pc = true → claimed s.cfg (s.pc + 1) = true → claimed s.cfg (s.pc + 2) = false →
      let t := afterRead (beginRequest s) s.pc
      let u := afterRead t (s.pc + 1)
      match operandCount (answer s s.pc) with
      | none => step s = .next { t with fault := some (.illegalOpcode (answer s s.pc) s.pc) }
      | some 0 => ∃ i, decode [answer s s.pc] = .ok (i, []) ∧ step s = exec i t
      | some 1 => ∃ i, decode [answer s s.pc, answer t (s.pc + 1)] = .ok (i, []) ∧ step s = exec i u
      | some (_ + 2) => step s = .next { u with fault := some (.unmappedMemoryAccess (s.pc + 2) .read) })

/-- O40. R305: the outcome carries no state, so nothing changes (log entry 6). Rests on the spec's own decision D4 (spec/92_eei_decisions.md). -/
def Obligations.LatchedFaultIsTerminal : Prop :=
  ∀ (s : State) (f : Fault), s.fault = some f →
    step s = .fault f ∧ status s = some f ∧
    (∀ level, (driveIrq level s).fault = some f ∧ (driveNmi level s).fault = some f) ∧
    (claimed s.cfg 0xFFFC = true → (resetRequest s).fault = none)

/-- O41. R308, over every instruction and every state. That an interrupt's pushes stay is the model's reading of R306 (log entry 7). -/
def Obligations.FaultsArePrecise : Prop :=
  ∀ s u : State, step s = .next u → u.fault ≠ none →
    SameRegisters s u ∧ u.cfg = s.cfg ∧ u.prgRam = s.prgRam ∧
    (SameMemory s u ∨ acceptedInterrupt s ≠ none ∨ ∃ t, fetchInstr (beginRequest s) = .ok .brk t) ∧
    (∀ addr, route s.cfg addr ≠ route s.cfg (stackAddr s.sp) → route s.cfg addr ≠ route s.cfg (stackAddr (s.sp - 1)) →
      route s.cfg addr ≠ route s.cfg (stackAddr (s.sp - 2)) → peek u addr = peek s addr)

/-- O42. R54, R300, R306 and R316 together, over every instruction. -/
def Obligations.DefaultPolicyOnlyIllegalOpcode : Prop :=
  ∀ s u : State, s.cfg.strictUnmapped = false → step s = .next u →
    u.fault = none ∨ ∃ op, operandCount op = none ∧ u.fault = some (.illegalOpcode op s.pc)

/-- O43. The model's choice of log entry 6 (DESIGN CHOICE), and no rule of the spec: a faulting step (R302, R306) leaves its state as a next state with the latch set, and only a step that finds the latch full answers the fault (R305). When an instruction faults and when it completes is said by other statements. -/
def Obligations.ExecAnswersNextAndNoStepIsRefused : Prop :=
  (∀ (i : Instr) (s : State), ∃ t, exec i s = .next t) ∧
  (∀ s : State, (∃ t, step s = .next t) ∨ ∃ f, s.fault = some f ∧ step s = .fault f)

/-- O44. What these instructions leave unchanged; they store nothing. -/
def Obligations.FrameOfLoadsAndArithmetic : Prop :=
  ∀ (i : Instr) (s t : State),
    i.mnemonic ∈ ([.lda, .ldx, .ldy, .ora, .and, .eor, .adc, .sbc, .cmp, .cpx, .cpy, .bit] : List Mnemonic) →
    exec i s = .next t →
    t.sp = s.sp ∧ t.p.i = s.p.i ∧ t.p.d = s.p.d ∧
    (i.mnemonic ∉ ([.lda, .ora, .and, .eor, .adc, .sbc] : List Mnemonic) → t.a = s.a) ∧
    (i.mnemonic ≠ .ldx → t.x = s.x) ∧ (i.mnemonic ≠ .ldy → t.y = s.y) ∧
    (i.mnemonic ∉ ([.adc, .sbc, .cmp, .cpx, .cpy] : List Mnemonic) → t.p.c = s.p.c) ∧
    (i.mnemonic ∉ ([.adc, .sbc, .bit] : List Mnemonic) → t.p.v = s.p.v) ∧
    SameMemory s t ∧ SameOutside s t ∧
    (∀ m, instrMode i = some m → operandClaimed m s = true → t.fault = s.fault)

/-- O45. What a store leaves unchanged; the address is the one `resolve` gives, as the meaning computes it. -/
def Obligations.FrameOfStores : Prop :=
  ∀ (i : Instr) (m : Mode) (s t u : State) (addr : Addr), i.mnemonic ∈ ([.sta, .stx, .sty] : List Mnemonic) →
    instrMode i = some m → exec i s = .next t → resolve m s = .ok (.mem addr) u →
    t.a = s.a ∧ t.x = s.x ∧ t.y = s.y ∧ t.sp = s.sp ∧ t.p = s.p ∧ t.draws = s.draws ∧
    SameMemoryBut addr s t ∧ SameOutside s t ∧ (claimed s.cfg addr = true → t.fault = s.fault)

/-- O46. What a read-modify-write leaves unchanged. -/
def Obligations.FrameOfReadModifyWrite : Prop :=
  ∀ (i : Instr) (m : Mode) (s t u : State) (loc : Loc),
    i.mnemonic ∈ ([.asl, .lsr, .rol, .ror, .inc, .dec] : List Mnemonic) →
    instrMode i = some m → exec i s = .next t → resolve m s = .ok loc u →
    t.x = s.x ∧ t.y = s.y ∧ t.sp = s.sp ∧ t.p.i = s.p.i ∧ t.p.d = s.p.d ∧ t.p.v = s.p.v ∧ SameOutside s t ∧
    (i.mnemonic ∈ ([.inc, .dec] : List Mnemonic) → t.p.c = s.p.c) ∧
    (∀ addr, loc = .mem addr → t.a = s.a ∧ SameMemoryBut addr s t ∧ (claimed s.cfg addr = true → t.fault = s.fault)) ∧
    (loc = .acc → SameMemory s t ∧ t.fault = s.fault)

/-- O47. What the stack instructions leave unchanged; the stack slots are those of `stackAddr` as `push` computes them. -/
def Obligations.FrameOfStackInstructions : Prop :=
  ∀ (i : Instr) (s t : State), i.mnemonic ∈ ([.pha, .php, .pla, .plp, .jsr, .rts, .rti, .brk] : List Mnemonic) →
    exec i s = .next t →
    t.x = s.x ∧ t.y = s.y ∧ SameOutside s t ∧ t.prgRam = s.prgRam ∧
    (i.mnemonic ≠ .brk → t.fault = s.fault) ∧
    (i.mnemonic ≠ .pla → t.a = s.a) ∧
    (i.mnemonic ∈ ([.pha, .php, .jsr, .rts] : List Mnemonic) → t.p = s.p) ∧
    (i.mnemonic = .pla → t.p.c = s.p.c ∧ t.p.i = s.p.i ∧ t.p.d = s.p.d ∧ t.p.v = s.p.v) ∧
    (i.mnemonic = .brk → t.p.c = s.p.c ∧ t.p.z = s.p.z ∧ t.p.d = s.p.d ∧ t.p.v = s.p.v ∧ t.p.n = s.p.n) ∧
    (∀ other,
      (i.mnemonic ∈ ([.pha, .php, .jsr, .brk] : List Mnemonic) → route s.cfg other ≠ route s.cfg (stackAddr s.sp)) →
      (i.mnemonic ∈ ([.jsr, .brk] : List Mnemonic) → route s.cfg other ≠ route s.cfg (stackAddr (s.sp - 1))) →
      (i.mnemonic = .brk → route s.cfg other ≠ route s.cfg (stackAddr (s.sp - 2))) →
      peek t other = peek s other)

/-- O48. What these instructions leave unchanged. -/
def Obligations.FrameOfRegisterInstructions : Prop :=
  ∀ (i : Instr) (s t : State),
    i.form ∈ ([.implied, .relative, .absoluteTarget, .indirectPointer] : List Form) →
    i.mnemonic ∉ ([.pha, .php, .pla, .plp, .jsr, .rts, .rti, .brk] : List Mnemonic) → exec i s = .next t →
    SameMemory s t ∧ SameOutside s t ∧ (i.form ≠ .indirectPointer → t.fault = s.fault) ∧
    (i.mnemonic ∉ ([.txa, .tya] : List Mnemonic) → t.a = s.a) ∧
    (i.mnemonic ∉ ([.inx, .dex, .tax, .tsx] : List Mnemonic) → t.x = s.x) ∧
    (i.mnemonic ∉ ([.iny, .dey, .tay] : List Mnemonic) → t.y = s.y) ∧
    (i.mnemonic ≠ .txs → t.sp = s.sp) ∧
    (i.mnemonic ∉ ([.clc, .sec] : List Mnemonic) → t.p.c = s.p.c) ∧
    (i.mnemonic ∉ ([.cli, .sei] : List Mnemonic) → t.p.i = s.p.i) ∧
    (i.mnemonic ∉ ([.cld, .sed] : List Mnemonic) → t.p.d = s.p.d) ∧
    (i.mnemonic ≠ .clv → t.p.v = s.p.v) ∧
    (i.mnemonic ∉ ([.inx, .iny, .dex, .dey, .tax, .txa, .tay, .tya, .tsx] : List Mnemonic) →
      t.p.z = s.p.z ∧ t.p.n = s.p.n)

/-- O49. R84: what a step adds around exec is the record of the fetches. -/
def Obligations.StepRunsDecodedInstruction : Prop :=
  ∀ (s : State) (bytes : List Byte) (i : Instr), Running s → acceptedInterrupt s = none →
    decode bytes = .ok (i, []) → HoldsAt bytes s.pc s →
    step s = exec i { s with bus := readsOf bytes s.pc }

/-- O50. R84 without the assumption that the bytes stand in memory: each byte is the answer of the bus after the reads before it, a device window answering free values (log entry 4). -/
def Obligations.StepRunsFetchedInstruction : Prop :=
  ∀ (s : State) (n : Nat), Running s → acceptedInterrupt s = none →
    operandCount (answer s s.pc) = some n →
    (∀ k, k ≤ n → claimed s.cfg (s.pc + BitVec.ofNat 16 k) = true) →
    let bytes := answers (n + 1) s.pc (beginRequest s)
    let t := afterReads (n + 1) s.pc (beginRequest s)
    t = { s with draws := t.draws, bus := readsOf bytes s.pc } ∧
    ∃ i, decode bytes = .ok (i, []) ∧ step s = exec i t

/-- O51. `Invariant` over every step from every state that has it. -/
def Obligations.StepKeepsInvariant : Prop :=
  ∀ s t : State, Invariant s → step s = .next t → Invariant t

/-- O52. R330 and R331, the latter marked by the spec as resting on its decisions D4 and D16 (spec/92_eei_decisions.md); `State.reset` rests on the model's choice of the OPEN parameters (log entry 2). -/
def Obligations.ResetsHaveInvariant : Prop :=
  State.reset = powerOn Config.standard ∧ Invariant State.reset ∧
  (∀ c, (∃ s, s.cfg = c ∧ s.ram = c.ramInit ∧ s.prgRam = c.prgRamInit ∧ powerOn c = resetRequest s) ∧
    (powerOn c).ram = c.ramInit ∧ (powerOn c).prgRam = c.prgRamInit) ∧
  (∀ c, ConfigWf c → Invariant (powerOn c)) ∧ (∀ s, Invariant s → Invariant (resetRequest s))

/-- O53. R330 with R36. Rests on the spec's own decision D11 (S = 0xFD, I = 1) (spec/92_eei_decisions.md). -/
def Obligations.ResetRequest : Prop :=
  ∀ (s : State) (lo hi : Byte), peek s 0xFFFC = some lo → peek s 0xFFFD = some hi →
    resetRequest s = { s with
      fault := none
      nmiPending := false
      sp := 0xFD
      p := { c := s.cfg.resetC, z := s.cfg.resetZ, i := true, d := s.cfg.resetD, v := s.cfg.resetV, n := s.cfg.resetN }
      a := s.cfg.resetA
      x := s.cfg.resetX
      y := s.cfg.resetY
      pc := joinBytes hi lo
      bus := [.read 0xFFFC lo, .read 0xFFFD hi] }

/-- O54. R332 and R333, which the spec marks as derived. -/
def Obligations.ResetVectorSource : Prop :=
  ∀ s : State,
    (s.cfg.cartPresent = false → s.cfg.strictUnmapped = false →
      (resetRequest s).pc = 0x0000 ∧ (resetRequest s).fault = none) ∧
    (s.cfg.cartPresent = false → s.cfg.strictUnmapped = true →
      resetRequest s = { resetRegisters s with
        pc := 0x0000, fault := some (.unmappedMemoryAccess 0xFFFC .read) } ∧
      (resetRequest s).sp = 0xFD ∧ (resetRequest s).p.i = true ∧ (resetRequest s).bus = []) ∧
    (s.cfg.cartPresent = true →
      let base := match s.cfg.prgRomSize with
        | .kib16 => 0x3FFC
        | .kib32 => 0x7FFC
      (resetRequest s).pc = joinBytes (s.cfg.prgRom.read (base + 1)) (s.cfg.prgRom.read base) ∧
      (resetRequest s).fault = none)

/-- O55. R312 to R315, which the spec supplies from general knowledge behind a parameter (decision D12). The clauses on an unclaimed vector are the model's reading of R306 for a case no rule speaks of (log entry 7, DEDUCED). -/
def Obligations.InterruptEntry : Prop :=
  ∀ s : State, Running s →
    let pushed := ((s.ram.write (0x0100 + s.sp.toNat) (highByte s.pc)).write (0x0100 + (s.sp - 1).toNat)
      (lowByte s.pc)).write (0x0100 + (s.sp - 2).toNat) (statusByte s.p false)
    let pushes := [BusEvent.write (0x0100 + s.sp.setWidth 16) (highByte s.pc),
      .write (0x0100 + (s.sp - 1).setWidth 16) (lowByte s.pc), .write (0x0100 + (s.sp - 2).setWidth 16) (statusByte s.p false)]
    (∀ lo hi, s.cfg.hasIrqNmi = true → s.nmiPending = true → peek s 0xFFFA = some lo → peek s 0xFFFB = some hi →
      step s = .next { s with
        nmiPending := false, ram := pushed, sp := s.sp - 3, p := { s.p with i := true }, pc := joinBytes hi lo
        bus := pushes ++ [.read 0xFFFA lo, .read 0xFFFB hi] }) ∧
    (∀ lo hi, s.cfg.hasIrqNmi = true → s.nmiPending = false → s.irq = true → s.p.i = false →
      peek s 0xFFFE = some lo → peek s 0xFFFF = some hi →
      step s = .next { s with
        ram := pushed, sp := s.sp - 3, p := { s.p with i := true }, pc := joinBytes hi lo
        bus := pushes ++ [.read 0xFFFE lo, .read 0xFFFF hi] }) ∧
    (s.cfg.hasIrqNmi = true → s.cfg.cartPresent = false → s.cfg.strictUnmapped = true →
      (s.nmiPending = true → step s = .next { s with
        nmiPending := false, ram := pushed, fault := some (.unmappedMemoryAccess 0xFFFA .read), bus := pushes }) ∧
      (s.nmiPending = false → s.irq = true → s.p.i = false → step s = .next { s with
        ram := pushed, fault := some (.unmappedMemoryAccess 0xFFFE .read), bus := pushes })) ∧
    (s.cfg.hasIrqNmi = false ∨ (s.nmiPending = false ∧ (s.irq = false ∨ s.p.i = true)) → acceptedInterrupt s = none) ∧
    statusByte s.p false = BitVec.ofNat 8
      (s.p.n.toNat * 128 + s.p.v.toNat * 64 + 32 + s.p.d.toNat * 8 + s.p.i.toNat * 4 + s.p.z.toNat * 2 + s.p.c.toNat) ∧
    (statusByte s.p false).getLsbD 4 = false ∧ (statusByte s.p true).getLsbD 4 = true ∧
    ((driveNmi true s).nmiPending = true ↔ s.nmiPending = true ∨ (s.cfg.hasIrqNmi = true ∧ s.nmi = false))

/-- O56. R29 over the whole instruction set, by comparing two runs that differ only in D; both runs draw the same device answers (log entry 4). -/
def Obligations.DecimalFlagHasNoEffect : Prop :=
  ∀ (i : Instr) (s : State) (d : Bool),
    i.mnemonic ∉ ([.php, .brk, .plp, .rti, .cld, .sed] : List Mnemonic) →
    exec i (withDecimal d s) = mapNext (withDecimal d) (exec i s)

/-- O57. A whole-machine rule over every instruction: PRG ROM is read-only (R53, R66). -/
def Obligations.ParametersAndInputsKept : Prop :=
  ∀ s t : State, step s = .next t →
    t.cfg = s.cfg ∧ t.irq = s.irq ∧ t.nmi = s.nmi ∧ s.draws ≤ t.draws ∧
    (t.nmiPending = s.nmiPending ∨ (acceptedInterrupt s = some .nmi ∧ t.nmiPending = false)) ∧
    (∀ addr, (∀ k, route s.cfg addr ≠ .ram k ∧ route s.cfg addr ≠ .prgRam k) → peek t addr = peek s addr)

/-- O58. The writer column of R25, which the spec marks as derived, and R35, over all 151 instructions. The spec has no list of the writers of S: that clause gathers the rules that change it, a push or a pull (R22, R56 to R59) of R202 to R205 and R230 to R233, and TXS (R239). -/
def Obligations.WritersOfEachFlag : Prop :=
  ∀ (i : Instr) (s t : State), exec i s = .next t →
    (t.p.c ≠ s.p.c → i.mnemonic ∈
      ([.adc, .sbc, .cmp, .cpx, .cpy, .asl, .lsr, .rol, .ror, .clc, .sec, .plp, .rti] : List Mnemonic)) ∧
    (t.p.i ≠ s.p.i → i.mnemonic ∈ ([.cli, .sei, .brk, .plp, .rti] : List Mnemonic)) ∧
    (t.p.d ≠ s.p.d → i.mnemonic ∈ ([.cld, .sed, .plp, .rti] : List Mnemonic)) ∧
    (t.p.v ≠ s.p.v → i.mnemonic ∈ ([.adc, .sbc, .bit, .clv, .plp, .rti] : List Mnemonic)) ∧
    (t.p.z ≠ s.p.z ∨ t.p.n ≠ s.p.n → i.mnemonic ∉
      ([.jmp, .jsr, .rts, .brk, .bpl, .bmi, .bvc, .bvs, .bcc, .bcs, .bne, .beq, .pha, .php, .txs, .sta, .stx, .sty,
        .clc, .sec, .cli, .sei, .clv, .cld, .sed, .nop] : List Mnemonic)) ∧
    (t.sp ≠ s.sp → i.mnemonic ∈ ([.pha, .php, .pla, .plp, .jsr, .rts, .rti, .brk, .txs] : List Mnemonic))

/-- O59. R202 and R203 together: the linkage R215 speaks of. -/
def Obligations.CallThenReturn : Prop :=
  ∀ (s : State) (target : Addr), ∃ t u, exec (.jsr target) s = .next t ∧ exec .rts t = .next u ∧
    u.pc = s.pc + 3 ∧ u.sp = s.sp ∧ u.a = s.a ∧ u.x = s.x ∧ u.y = s.y ∧ u.p = s.p

/-- O60. R204 and R205 together (R309, R310). -/
def Obligations.BreakThenReturn : Prop :=
  ∀ (s : State) (lo hi : Byte), peek s 0xFFFE = some lo → peek s 0xFFFF = some hi →
    ∃ t u, exec .brk s = .next t ∧ t.p.i = true ∧ exec .rti t = .next u ∧
      u.pc = s.pc + 2 ∧ u.sp = s.sp ∧ u.a = s.a ∧ u.x = s.x ∧ u.y = s.y ∧ u.p = s.p
end

