-- ==== Sys2Proof/Laws/Memory.lean ====
section
/-! SUPPORT. The laws of a byte array: a read after a write, and that a write keeps the canonical form. -/

namespace Sys2Proof

@[simp] theorem Memory.read_nil (k : Nat) : Memory.read [] k = unlistedByte := rfl

theorem Memory.read_cons (j : Nat) (v : Byte) (m : Memory) (k : Nat) :
    Memory.read ((j, v) :: m) k = if j = k then v else Memory.read m k := rfl

theorem Memory.erase_cons (j : Nat) (v : Byte) (m : Memory) (k : Nat) :
    Memory.erase ((j, v) :: m) k = if j = k then m.erase k else (j, v) :: m.erase k := by
  by_cases h : j = k <;> simp [Memory.erase, h]

theorem Memory.read_erase (m : Memory) (k i : Nat) :
    (m.erase k).read i = if i = k then unlistedByte else m.read i := by
  induction m with
  | nil => simp [Memory.erase]
  | cons cell m ih =>
    obtain ⟨j, v⟩ := cell
    rw [Memory.erase_cons, Memory.read_cons]
    by_cases hi : i = k
    · subst hi
      by_cases hj : j = i <;> simp_all [Memory.read_cons]
    · by_cases hj : j = k
      · have : k ≠ i := fun h => hi h.symm
        simp_all
      · simp_all [Memory.read_cons]

theorem Memory.mem_erase {m : Memory} {k : Nat} {cell : Host.Cell} :
    cell ∈ m.erase k ↔ cell ∈ m ∧ cell.1 ≠ k := by
  simp [Memory.erase]

theorem Memory.read_insert (k : Nat) (v : Byte) (m : Memory) (i : Nat) (fresh : ∀ cell ∈ m, cell.1 ≠ k) :
    (Memory.insert k v m).read i = if i = k then v else m.read i := by
  induction m with
  | nil => simp [Memory.insert, Memory.read_cons, eq_comm]
  | cons cell m ih =>
    obtain ⟨j, w⟩ := cell
    have hj : j ≠ k := fresh (j, w) (by simp)
    have ih := ih fun cell h => fresh cell (by simp [h])
    simp only [Memory.insert]
    split
    · simp [Memory.read_cons, eq_comm]
    · rw [Memory.read_cons, Memory.read_cons, ih]
      split <;> split <;> simp_all

/-- A read after a write: the byte written at its index, and every other index as before. -/
theorem Memory.read_write (m : Memory) (k : Nat) (v : Byte) (i : Nat) :
    (m.write k v).read i = if i = k then v else m.read i := by
  unfold Memory.write
  split
  · simp_all [Memory.read_erase]
  · rw [Memory.read_insert _ _ _ _ fun cell h => (Memory.mem_erase.1 h).2, Memory.read_erase]
    split <;> rfl

@[simp] theorem Memory.read_write_same (m : Memory) (k : Nat) (v : Byte) : (m.write k v).read k = v := by
  simp [Memory.read_write]

theorem Memory.read_write_other (m : Memory) {k i : Nat} (v : Byte) (h : i ≠ k) : (m.write k v).read i = m.read i := by
  simp [Memory.read_write, h]

/-- The first index of a sorted array is below all others, and the rest is sorted. -/
theorem Memory.sorted_cons (j : Nat) (v : Byte) (m : Memory) :
    Memory.sorted ((j, v) :: m) = true ↔ (∀ cell ∈ m, j < cell.1) ∧ m.sorted = true := by
  induction m generalizing j v with
  | nil => simp [Memory.sorted]
  | cons cell m ih =>
    obtain ⟨k, w⟩ := cell
    simp only [Memory.sorted, Bool.and_eq_true, decide_eq_true_eq, ih k w, List.mem_cons, forall_eq_or_imp]
    constructor
    · rintro ⟨h, hk, hm⟩
      exact ⟨⟨h, fun cell hc => h.trans (hk cell hc)⟩, hk, hm⟩
    · rintro ⟨⟨h, _⟩, hk, hm⟩
      exact ⟨h, hk, hm⟩

theorem Memory.sorted_erase {m : Memory} (k : Nat) (h : m.sorted = true) : (m.erase k).sorted = true := by
  induction m with
  | nil => rfl
  | cons cell m ih =>
    obtain ⟨j, v⟩ := cell
    rw [Memory.sorted_cons] at h
    rw [Memory.erase_cons]
    split
    · exact ih h.2
    · exact (Memory.sorted_cons _ _ _).2 ⟨fun cell hc => h.1 cell (Memory.mem_erase.1 hc).1, ih h.2⟩

theorem Memory.mem_insert {k : Nat} {v : Byte} {m : Memory} {cell : Host.Cell} :
    cell ∈ Memory.insert k v m ↔ cell = (k, v) ∨ cell ∈ m := by
  induction m with
  | nil => simp [Memory.insert]
  | cons first m ih =>
    obtain ⟨j, w⟩ := first
    simp only [Memory.insert]
    split
    · simp
    · simp only [List.mem_cons, ih]
      tauto

theorem Memory.sorted_insert {k : Nat} {v : Byte} {m : Memory} (fresh : ∀ cell ∈ m, cell.1 ≠ k)
    (h : m.sorted = true) : (Memory.insert k v m).sorted = true := by
  induction m with
  | nil => rfl
  | cons first m ih =>
    obtain ⟨j, w⟩ := first
    have hj : j ≠ k := fresh (j, w) (by simp)
    have hs := (Memory.sorted_cons _ _ _).1 h
    simp only [Memory.insert]
    split
    · next hk =>
      refine (Memory.sorted_cons _ _ _).2 ⟨fun cell hc => ?_, h⟩
      rcases List.mem_cons.1 hc with rfl | hc
      · exact hk
      · exact hk.trans (hs.1 cell hc)
    · refine (Memory.sorted_cons _ _ _).2 ⟨fun cell hc => ?_, ih (fun cell hc => fresh cell (by simp [hc])) hs.2⟩
      rcases Memory.mem_insert.1 hc with rfl | hc
      · simp only; omega
      · exact hs.1 cell hc

theorem Memory.wf_iff (m : Memory) :
    m.wf = true ↔ m.sorted = true ∧ ∀ cell ∈ m, cell.2 ≠ unlistedByte := by
  simp [Memory.wf]

/-- A write keeps the canonical form. -/
theorem Memory.wf_write {m : Memory} (k : Nat) (v : Byte) (h : m.wf = true) : (m.write k v).wf = true := by
  rw [Memory.wf_iff] at h ⊢
  unfold Memory.write
  split
  · exact ⟨Memory.sorted_erase k h.1, fun cell hc => h.2 cell (Memory.mem_erase.1 hc).1⟩
  · next hv =>
    refine ⟨Memory.sorted_insert (fun cell hc => (Memory.mem_erase.1 hc).2) (Memory.sorted_erase k h.1), fun cell hc => ?_⟩
    rcases Memory.mem_insert.1 hc with rfl | hc
    · exact hv
    · exact h.2 cell (Memory.mem_erase.1 hc).1

/-- A write below a size keeps every index below it. -/
theorem Memory.below_write {m : Memory} {size k : Nat} (v : Byte) (hk : k < size) (h : m.below size = true) :
    (m.write k v).below size = true := by
  simp only [Memory.below, List.all_eq_true, decide_eq_true_eq] at h ⊢
  unfold Memory.write
  split
  · exact fun cell hc => h cell (Memory.mem_erase.1 hc).1
  · intro cell hc
    rcases Memory.mem_insert.1 hc with rfl | hc
    · exact hk
    · exact h cell (Memory.mem_erase.1 hc).1

theorem Memory.read_of_below {m : Memory} {j : Nat} (h : ∀ cell ∈ m, j < cell.1) : m.read j = unlistedByte := by
  induction m with
  | nil => rfl
  | cons cell m ih =>
    obtain ⟨k, v⟩ := cell
    have hk := h (k, v) (by simp)
    rw [Memory.read_cons, if_neg (by simp only at hk; omega)]
    exact ih fun cell hc => h cell (by simp [hc])

/-- Canonical arrays with the same contents are the same list. -/
theorem Memory.ext_of_read {m n : Memory} (hm : m.wf = true) (hn : n.wf = true)
    (h : ∀ k, m.read k = n.read k) : m = n := by
  induction m generalizing n with
  | nil =>
    cases n with
    | nil => rfl
    | cons cell n =>
      obtain ⟨k, w⟩ := cell
      have hw := ((Memory.wf_iff _).1 hn).2 (k, w) (by simp)
      have := h k
      simp [Memory.read_cons] at this
      exact absurd this.symm hw
  | cons cell m ih =>
    obtain ⟨j, v⟩ := cell
    have hm' := (Memory.wf_iff _).1 hm
    have hjv := hm'.2 (j, v) (by simp)
    have hms := (Memory.sorted_cons _ _ _).1 hm'.1
    cases n with
    | nil =>
      have := h j
      simp [Memory.read_cons] at this
      exact absurd this hjv
    | cons cell' n =>
      obtain ⟨k, w⟩ := cell'
      have hn' := (Memory.wf_iff _).1 hn
      have hkw := hn'.2 (k, w) (by simp)
      have hns := (Memory.sorted_cons _ _ _).1 hn'.1
      have hjk : j = k := by
        rcases Nat.lt_trichotomy j k with hlt | heq | hgt
        · have := h j
          rw [Memory.read_cons, if_pos rfl, Memory.read_of_below (m := (k, w) :: n) (by
            intro cell hc
            rcases List.mem_cons.1 hc with rfl | hc
            · exact hlt
            · exact hlt.trans (hns.1 cell hc))] at this
          exact absurd this hjv
        · exact heq
        · have := h k
          rw [Memory.read_of_below (m := (j, v) :: m) (by
            intro cell hc
            rcases List.mem_cons.1 hc with rfl | hc
            · exact hgt
            · exact hgt.trans (hms.1 cell hc)), Memory.read_cons, if_pos rfl] at this
          exact absurd this.symm hkw
      subst hjk
      have hv : v = w := by simpa [Memory.read_cons] using h j
      subst hv
      have hwm : Memory.wf m = true := (Memory.wf_iff _).2 ⟨hms.2, fun cell hc => hm'.2 cell (by simp [hc])⟩
      have hwn : Memory.wf n = true := (Memory.wf_iff _).2 ⟨hns.2, fun cell hc => hn'.2 cell (by simp [hc])⟩
      rw [ih hwm hwn]
      intro i
      by_cases hi : j = i
      · subst hi
        rw [Memory.read_of_below hms.1, Memory.read_of_below hns.1]
      · simpa [Memory.read_cons, hi] using h i

end Sys2Proof
end

