-- ==== Sys2Proof/Laws/State.lean ====
section
/-! SUPPORT. For each named update of the state, what each field is after it. A field an update computes by the route of an
address has its lemma in Laws/Bus.lean. -/

namespace Sys2Proof.Machine

/-! ### issue -/

@[simp] theorem issue_a (s : State) (e : BusEvent) : (s.issue e).a = s.a := rfl
@[simp] theorem issue_x (s : State) (e : BusEvent) : (s.issue e).x = s.x := rfl
@[simp] theorem issue_y (s : State) (e : BusEvent) : (s.issue e).y = s.y := rfl
@[simp] theorem issue_sp (s : State) (e : BusEvent) : (s.issue e).sp = s.sp := rfl
@[simp] theorem issue_pc (s : State) (e : BusEvent) : (s.issue e).pc = s.pc := rfl
@[simp] theorem issue_p (s : State) (e : BusEvent) : (s.issue e).p = s.p := rfl
@[simp] theorem issue_fault (s : State) (e : BusEvent) : (s.issue e).fault = s.fault := rfl
@[simp] theorem issue_ram (s : State) (e : BusEvent) : (s.issue e).ram = s.ram := rfl
@[simp] theorem issue_prgRam (s : State) (e : BusEvent) : (s.issue e).prgRam = s.prgRam := rfl
@[simp] theorem issue_irq (s : State) (e : BusEvent) : (s.issue e).irq = s.irq := rfl
@[simp] theorem issue_nmi (s : State) (e : BusEvent) : (s.issue e).nmi = s.nmi := rfl
@[simp] theorem issue_nmiPending (s : State) (e : BusEvent) : (s.issue e).nmiPending = s.nmiPending := rfl
@[simp] theorem issue_cfg (s : State) (e : BusEvent) : (s.issue e).cfg = s.cfg := rfl
@[simp] theorem issue_draws (s : State) (e : BusEvent) : (s.issue e).draws = s.draws := rfl
@[simp] theorem issue_bus (s : State) (e : BusEvent) : (s.issue e).bus = s.bus ++ [e] := rfl

/-! ### beginRequest -/

@[simp] theorem beginRequest_a (s : State) : (beginRequest s).a = s.a := rfl
@[simp] theorem beginRequest_x (s : State) : (beginRequest s).x = s.x := rfl
@[simp] theorem beginRequest_y (s : State) : (beginRequest s).y = s.y := rfl
@[simp] theorem beginRequest_sp (s : State) : (beginRequest s).sp = s.sp := rfl
@[simp] theorem beginRequest_pc (s : State) : (beginRequest s).pc = s.pc := rfl
@[simp] theorem beginRequest_p (s : State) : (beginRequest s).p = s.p := rfl
@[simp] theorem beginRequest_fault (s : State) : (beginRequest s).fault = s.fault := rfl
@[simp] theorem beginRequest_ram (s : State) : (beginRequest s).ram = s.ram := rfl
@[simp] theorem beginRequest_prgRam (s : State) : (beginRequest s).prgRam = s.prgRam := rfl
@[simp] theorem beginRequest_irq (s : State) : (beginRequest s).irq = s.irq := rfl
@[simp] theorem beginRequest_nmi (s : State) : (beginRequest s).nmi = s.nmi := rfl
@[simp] theorem beginRequest_nmiPending (s : State) : (beginRequest s).nmiPending = s.nmiPending := rfl
@[simp] theorem beginRequest_cfg (s : State) : (beginRequest s).cfg = s.cfg := rfl
@[simp] theorem beginRequest_draws (s : State) : (beginRequest s).draws = s.draws := rfl
@[simp] theorem beginRequest_bus (s : State) : (beginRequest s).bus = [] := rfl

/-! ### latchFault -/

@[simp] theorem latchFault_a (s : State) (f : Fault) (t : State) : (latchFault s f t).a = s.a := rfl
@[simp] theorem latchFault_x (s : State) (f : Fault) (t : State) : (latchFault s f t).x = s.x := rfl
@[simp] theorem latchFault_y (s : State) (f : Fault) (t : State) : (latchFault s f t).y = s.y := rfl
@[simp] theorem latchFault_sp (s : State) (f : Fault) (t : State) : (latchFault s f t).sp = s.sp := rfl
@[simp] theorem latchFault_pc (s : State) (f : Fault) (t : State) : (latchFault s f t).pc = s.pc := rfl
@[simp] theorem latchFault_p (s : State) (f : Fault) (t : State) : (latchFault s f t).p = s.p := rfl
@[simp] theorem latchFault_fault (s : State) (f : Fault) (t : State) : (latchFault s f t).fault = some f := rfl
@[simp] theorem latchFault_ram (s : State) (f : Fault) (t : State) : (latchFault s f t).ram = t.ram := rfl
@[simp] theorem latchFault_prgRam (s : State) (f : Fault) (t : State) : (latchFault s f t).prgRam = t.prgRam := rfl
@[simp] theorem latchFault_irq (s : State) (f : Fault) (t : State) : (latchFault s f t).irq = t.irq := rfl
@[simp] theorem latchFault_nmi (s : State) (f : Fault) (t : State) : (latchFault s f t).nmi = t.nmi := rfl
@[simp] theorem latchFault_nmiPending (s : State) (f : Fault) (t : State) : (latchFault s f t).nmiPending = t.nmiPending := rfl
@[simp] theorem latchFault_cfg (s : State) (f : Fault) (t : State) : (latchFault s f t).cfg = t.cfg := rfl
@[simp] theorem latchFault_draws (s : State) (f : Fault) (t : State) : (latchFault s f t).draws = t.draws := rfl
@[simp] theorem latchFault_bus (s : State) (f : Fault) (t : State) : (latchFault s f t).bus = t.bus := rfl

/-! ### resetRegisters -/

@[simp] theorem resetRegisters_a (s : State) : (resetRegisters s).a = s.cfg.resetA := rfl
@[simp] theorem resetRegisters_x (s : State) : (resetRegisters s).x = s.cfg.resetX := rfl
@[simp] theorem resetRegisters_y (s : State) : (resetRegisters s).y = s.cfg.resetY := rfl
@[simp] theorem resetRegisters_sp (s : State) : (resetRegisters s).sp = resetS := rfl
@[simp] theorem resetRegisters_pc (s : State) : (resetRegisters s).pc = s.pc := rfl
@[simp] theorem resetRegisters_p (s : State) : (resetRegisters s).p = { c := s.cfg.resetC, z := s.cfg.resetZ, i := true, d := s.cfg.resetD, v := s.cfg.resetV, n := s.cfg.resetN } := rfl
@[simp] theorem resetRegisters_fault (s : State) : (resetRegisters s).fault = none := rfl
@[simp] theorem resetRegisters_ram (s : State) : (resetRegisters s).ram = s.ram := rfl
@[simp] theorem resetRegisters_prgRam (s : State) : (resetRegisters s).prgRam = s.prgRam := rfl
@[simp] theorem resetRegisters_irq (s : State) : (resetRegisters s).irq = s.irq := rfl
@[simp] theorem resetRegisters_nmi (s : State) : (resetRegisters s).nmi = s.nmi := rfl
@[simp] theorem resetRegisters_nmiPending (s : State) : (resetRegisters s).nmiPending = false := rfl
@[simp] theorem resetRegisters_cfg (s : State) : (resetRegisters s).cfg = s.cfg := rfl
@[simp] theorem resetRegisters_draws (s : State) : (resetRegisters s).draws = s.draws := rfl
@[simp] theorem resetRegisters_bus (s : State) : (resetRegisters s).bus = [] := rfl

/-! ### driveIrq -/

@[simp] theorem driveIrq_a (s : State) (level : Bool) : (driveIrq level s).a = s.a := rfl
@[simp] theorem driveIrq_x (s : State) (level : Bool) : (driveIrq level s).x = s.x := rfl
@[simp] theorem driveIrq_y (s : State) (level : Bool) : (driveIrq level s).y = s.y := rfl
@[simp] theorem driveIrq_sp (s : State) (level : Bool) : (driveIrq level s).sp = s.sp := rfl
@[simp] theorem driveIrq_pc (s : State) (level : Bool) : (driveIrq level s).pc = s.pc := rfl
@[simp] theorem driveIrq_p (s : State) (level : Bool) : (driveIrq level s).p = s.p := rfl
@[simp] theorem driveIrq_fault (s : State) (level : Bool) : (driveIrq level s).fault = s.fault := rfl
@[simp] theorem driveIrq_ram (s : State) (level : Bool) : (driveIrq level s).ram = s.ram := rfl
@[simp] theorem driveIrq_prgRam (s : State) (level : Bool) : (driveIrq level s).prgRam = s.prgRam := rfl
@[simp] theorem driveIrq_irq (s : State) (level : Bool) : (driveIrq level s).irq = level := rfl
@[simp] theorem driveIrq_nmi (s : State) (level : Bool) : (driveIrq level s).nmi = s.nmi := rfl
@[simp] theorem driveIrq_nmiPending (s : State) (level : Bool) : (driveIrq level s).nmiPending = s.nmiPending := rfl
@[simp] theorem driveIrq_cfg (s : State) (level : Bool) : (driveIrq level s).cfg = s.cfg := rfl
@[simp] theorem driveIrq_draws (s : State) (level : Bool) : (driveIrq level s).draws = s.draws := rfl
@[simp] theorem driveIrq_bus (s : State) (level : Bool) : (driveIrq level s).bus = s.bus := rfl

/-! ### driveNmi -/

@[simp] theorem driveNmi_a (s : State) (level : Bool) : (driveNmi level s).a = s.a := rfl
@[simp] theorem driveNmi_x (s : State) (level : Bool) : (driveNmi level s).x = s.x := rfl
@[simp] theorem driveNmi_y (s : State) (level : Bool) : (driveNmi level s).y = s.y := rfl
@[simp] theorem driveNmi_sp (s : State) (level : Bool) : (driveNmi level s).sp = s.sp := rfl
@[simp] theorem driveNmi_pc (s : State) (level : Bool) : (driveNmi level s).pc = s.pc := rfl
@[simp] theorem driveNmi_p (s : State) (level : Bool) : (driveNmi level s).p = s.p := rfl
@[simp] theorem driveNmi_fault (s : State) (level : Bool) : (driveNmi level s).fault = s.fault := rfl
@[simp] theorem driveNmi_ram (s : State) (level : Bool) : (driveNmi level s).ram = s.ram := rfl
@[simp] theorem driveNmi_prgRam (s : State) (level : Bool) : (driveNmi level s).prgRam = s.prgRam := rfl
@[simp] theorem driveNmi_irq (s : State) (level : Bool) : (driveNmi level s).irq = s.irq := rfl
@[simp] theorem driveNmi_nmi (s : State) (level : Bool) : (driveNmi level s).nmi = level := rfl
@[simp] theorem driveNmi_nmiPending (s : State) (level : Bool) : (driveNmi level s).nmiPending = (s.nmiPending || (s.cfg.hasIrqNmi && level && !s.nmi)) := rfl
@[simp] theorem driveNmi_cfg (s : State) (level : Bool) : (driveNmi level s).cfg = s.cfg := rfl
@[simp] theorem driveNmi_draws (s : State) (level : Bool) : (driveNmi level s).draws = s.draws := rfl
@[simp] theorem driveNmi_bus (s : State) (level : Bool) : (driveNmi level s).bus = s.bus := rfl

/-! ### afterRead -/

@[simp] theorem afterRead_a (s : State) (addr : Addr) : (afterRead s addr).a = s.a := rfl
@[simp] theorem afterRead_x (s : State) (addr : Addr) : (afterRead s addr).x = s.x := rfl
@[simp] theorem afterRead_y (s : State) (addr : Addr) : (afterRead s addr).y = s.y := rfl
@[simp] theorem afterRead_sp (s : State) (addr : Addr) : (afterRead s addr).sp = s.sp := rfl
@[simp] theorem afterRead_pc (s : State) (addr : Addr) : (afterRead s addr).pc = s.pc := rfl
@[simp] theorem afterRead_p (s : State) (addr : Addr) : (afterRead s addr).p = s.p := rfl
@[simp] theorem afterRead_fault (s : State) (addr : Addr) : (afterRead s addr).fault = s.fault := rfl
@[simp] theorem afterRead_ram (s : State) (addr : Addr) : (afterRead s addr).ram = s.ram := rfl
@[simp] theorem afterRead_prgRam (s : State) (addr : Addr) : (afterRead s addr).prgRam = s.prgRam := rfl
@[simp] theorem afterRead_irq (s : State) (addr : Addr) : (afterRead s addr).irq = s.irq := rfl
@[simp] theorem afterRead_nmi (s : State) (addr : Addr) : (afterRead s addr).nmi = s.nmi := rfl
@[simp] theorem afterRead_nmiPending (s : State) (addr : Addr) : (afterRead s addr).nmiPending = s.nmiPending := rfl
@[simp] theorem afterRead_cfg (s : State) (addr : Addr) : (afterRead s addr).cfg = s.cfg := rfl
@[simp] theorem afterRead_bus (s : State) (addr : Addr) : (afterRead s addr).bus = s.bus ++ [.read addr (answer s addr)] := rfl

/-! ### afterWrite -/

@[simp] theorem afterWrite_a (s : State) (addr : Addr) (v : Byte) : (afterWrite s addr v).a = s.a := rfl
@[simp] theorem afterWrite_x (s : State) (addr : Addr) (v : Byte) : (afterWrite s addr v).x = s.x := rfl
@[simp] theorem afterWrite_y (s : State) (addr : Addr) (v : Byte) : (afterWrite s addr v).y = s.y := rfl
@[simp] theorem afterWrite_sp (s : State) (addr : Addr) (v : Byte) : (afterWrite s addr v).sp = s.sp := rfl
@[simp] theorem afterWrite_pc (s : State) (addr : Addr) (v : Byte) : (afterWrite s addr v).pc = s.pc := rfl
@[simp] theorem afterWrite_p (s : State) (addr : Addr) (v : Byte) : (afterWrite s addr v).p = s.p := rfl
@[simp] theorem afterWrite_fault (s : State) (addr : Addr) (v : Byte) : (afterWrite s addr v).fault = s.fault := rfl
@[simp] theorem afterWrite_irq (s : State) (addr : Addr) (v : Byte) : (afterWrite s addr v).irq = s.irq := rfl
@[simp] theorem afterWrite_nmi (s : State) (addr : Addr) (v : Byte) : (afterWrite s addr v).nmi = s.nmi := rfl
@[simp] theorem afterWrite_nmiPending (s : State) (addr : Addr) (v : Byte) : (afterWrite s addr v).nmiPending = s.nmiPending := rfl
@[simp] theorem afterWrite_cfg (s : State) (addr : Addr) (v : Byte) : (afterWrite s addr v).cfg = s.cfg := rfl
@[simp] theorem afterWrite_draws (s : State) (addr : Addr) (v : Byte) : (afterWrite s addr v).draws = s.draws := rfl
@[simp] theorem afterWrite_bus (s : State) (addr : Addr) (v : Byte) : (afterWrite s addr v).bus = s.bus ++ [.write addr v] := rfl

/-! ### afterPush -/

@[simp] theorem afterPush_a (s : State) (v : Byte) : (afterPush s v).a = s.a := rfl
@[simp] theorem afterPush_x (s : State) (v : Byte) : (afterPush s v).x = s.x := rfl
@[simp] theorem afterPush_y (s : State) (v : Byte) : (afterPush s v).y = s.y := rfl
@[simp] theorem afterPush_sp (s : State) (v : Byte) : (afterPush s v).sp = s.sp - 1 := rfl
@[simp] theorem afterPush_pc (s : State) (v : Byte) : (afterPush s v).pc = s.pc := rfl
@[simp] theorem afterPush_p (s : State) (v : Byte) : (afterPush s v).p = s.p := rfl
@[simp] theorem afterPush_fault (s : State) (v : Byte) : (afterPush s v).fault = s.fault := rfl
@[simp] theorem afterPush_irq (s : State) (v : Byte) : (afterPush s v).irq = s.irq := rfl
@[simp] theorem afterPush_nmi (s : State) (v : Byte) : (afterPush s v).nmi = s.nmi := rfl
@[simp] theorem afterPush_nmiPending (s : State) (v : Byte) : (afterPush s v).nmiPending = s.nmiPending := rfl
@[simp] theorem afterPush_cfg (s : State) (v : Byte) : (afterPush s v).cfg = s.cfg := rfl
@[simp] theorem afterPush_draws (s : State) (v : Byte) : (afterPush s v).draws = s.draws := rfl
@[simp] theorem afterPush_bus (s : State) (v : Byte) : (afterPush s v).bus = s.bus ++ [.write (stackAddr s.sp) v] := rfl

/-! ### afterPull -/

@[simp] theorem afterPull_a (s : State) : (afterPull s).a = s.a := rfl
@[simp] theorem afterPull_x (s : State) : (afterPull s).x = s.x := rfl
@[simp] theorem afterPull_y (s : State) : (afterPull s).y = s.y := rfl
@[simp] theorem afterPull_sp (s : State) : (afterPull s).sp = s.sp + 1 := rfl
@[simp] theorem afterPull_pc (s : State) : (afterPull s).pc = s.pc := rfl
@[simp] theorem afterPull_p (s : State) : (afterPull s).p = s.p := rfl
@[simp] theorem afterPull_fault (s : State) : (afterPull s).fault = s.fault := rfl
@[simp] theorem afterPull_ram (s : State) : (afterPull s).ram = s.ram := rfl
@[simp] theorem afterPull_prgRam (s : State) : (afterPull s).prgRam = s.prgRam := rfl
@[simp] theorem afterPull_irq (s : State) : (afterPull s).irq = s.irq := rfl
@[simp] theorem afterPull_nmi (s : State) : (afterPull s).nmi = s.nmi := rfl
@[simp] theorem afterPull_nmiPending (s : State) : (afterPull s).nmiPending = s.nmiPending := rfl
@[simp] theorem afterPull_cfg (s : State) : (afterPull s).cfg = s.cfg := rfl
@[simp] theorem afterPull_bus (s : State) : (afterPull s).bus = s.bus ++ [.read (stackAddr (s.sp + 1)) (pullByte s)] := rfl

/-! ### afterResolve -/

@[simp] theorem afterResolve_a (s : State) (m : Mode) : (afterResolve m s).a = s.a := rfl
@[simp] theorem afterResolve_x (s : State) (m : Mode) : (afterResolve m s).x = s.x := rfl
@[simp] theorem afterResolve_y (s : State) (m : Mode) : (afterResolve m s).y = s.y := rfl
@[simp] theorem afterResolve_sp (s : State) (m : Mode) : (afterResolve m s).sp = s.sp := rfl
@[simp] theorem afterResolve_pc (s : State) (m : Mode) : (afterResolve m s).pc = s.pc := rfl
@[simp] theorem afterResolve_p (s : State) (m : Mode) : (afterResolve m s).p = s.p := rfl
@[simp] theorem afterResolve_fault (s : State) (m : Mode) : (afterResolve m s).fault = s.fault := rfl
@[simp] theorem afterResolve_ram (s : State) (m : Mode) : (afterResolve m s).ram = s.ram := rfl
@[simp] theorem afterResolve_prgRam (s : State) (m : Mode) : (afterResolve m s).prgRam = s.prgRam := rfl
@[simp] theorem afterResolve_irq (s : State) (m : Mode) : (afterResolve m s).irq = s.irq := rfl
@[simp] theorem afterResolve_nmi (s : State) (m : Mode) : (afterResolve m s).nmi = s.nmi := rfl
@[simp] theorem afterResolve_nmiPending (s : State) (m : Mode) : (afterResolve m s).nmiPending = s.nmiPending := rfl
@[simp] theorem afterResolve_cfg (s : State) (m : Mode) : (afterResolve m s).cfg = s.cfg := rfl
@[simp] theorem afterResolve_draws (s : State) (m : Mode) : (afterResolve m s).draws = s.draws := rfl
@[simp] theorem afterResolve_bus (s : State) (m : Mode) : (afterResolve m s).bus = s.bus ++ modeReads m s := rfl

/-! ### afterPush16 -/

@[simp] theorem afterPush16_a (s : State) (w : Addr) : (afterPush16 s w).a = s.a := by
  simp only [afterPush16, afterPush_a]
@[simp] theorem afterPush16_x (s : State) (w : Addr) : (afterPush16 s w).x = s.x := by
  simp only [afterPush16, afterPush_x]
@[simp] theorem afterPush16_y (s : State) (w : Addr) : (afterPush16 s w).y = s.y := by
  simp only [afterPush16, afterPush_y]
@[simp] theorem afterPush16_pc (s : State) (w : Addr) : (afterPush16 s w).pc = s.pc := by
  simp only [afterPush16, afterPush_pc]
@[simp] theorem afterPush16_p (s : State) (w : Addr) : (afterPush16 s w).p = s.p := by
  simp only [afterPush16, afterPush_p]
@[simp] theorem afterPush16_fault (s : State) (w : Addr) : (afterPush16 s w).fault = s.fault := by
  simp only [afterPush16, afterPush_fault]
@[simp] theorem afterPush16_irq (s : State) (w : Addr) : (afterPush16 s w).irq = s.irq := by
  simp only [afterPush16, afterPush_irq]
@[simp] theorem afterPush16_nmi (s : State) (w : Addr) : (afterPush16 s w).nmi = s.nmi := by
  simp only [afterPush16, afterPush_nmi]
@[simp] theorem afterPush16_nmiPending (s : State) (w : Addr) : (afterPush16 s w).nmiPending = s.nmiPending := by
  simp only [afterPush16, afterPush_nmiPending]
@[simp] theorem afterPush16_cfg (s : State) (w : Addr) : (afterPush16 s w).cfg = s.cfg := by
  simp only [afterPush16, afterPush_cfg]
@[simp] theorem afterPush16_draws (s : State) (w : Addr) : (afterPush16 s w).draws = s.draws := by
  simp only [afterPush16, afterPush_draws]

/-! ### afterPull16 -/

@[simp] theorem afterPull16_a (s : State) : (afterPull16 s).a = s.a := by
  simp only [afterPull16, afterPull_a]
@[simp] theorem afterPull16_x (s : State) : (afterPull16 s).x = s.x := by
  simp only [afterPull16, afterPull_x]
@[simp] theorem afterPull16_y (s : State) : (afterPull16 s).y = s.y := by
  simp only [afterPull16, afterPull_y]
@[simp] theorem afterPull16_pc (s : State) : (afterPull16 s).pc = s.pc := by
  simp only [afterPull16, afterPull_pc]
@[simp] theorem afterPull16_p (s : State) : (afterPull16 s).p = s.p := by
  simp only [afterPull16, afterPull_p]
@[simp] theorem afterPull16_fault (s : State) : (afterPull16 s).fault = s.fault := by
  simp only [afterPull16, afterPull_fault]
@[simp] theorem afterPull16_ram (s : State) : (afterPull16 s).ram = s.ram := by
  simp only [afterPull16, afterPull_ram]
@[simp] theorem afterPull16_prgRam (s : State) : (afterPull16 s).prgRam = s.prgRam := by
  simp only [afterPull16, afterPull_prgRam]
@[simp] theorem afterPull16_irq (s : State) : (afterPull16 s).irq = s.irq := by
  simp only [afterPull16, afterPull_irq]
@[simp] theorem afterPull16_nmi (s : State) : (afterPull16 s).nmi = s.nmi := by
  simp only [afterPull16, afterPull_nmi]
@[simp] theorem afterPull16_nmiPending (s : State) : (afterPull16 s).nmiPending = s.nmiPending := by
  simp only [afterPull16, afterPull_nmiPending]
@[simp] theorem afterPull16_cfg (s : State) : (afterPull16 s).cfg = s.cfg := by
  simp only [afterPull16, afterPull_cfg]

/-! ### afterRead16 -/

@[simp] theorem afterRead16_a (s : State) (addr : Addr) : (afterRead16 s addr).a = s.a := by
  simp only [afterRead16, afterRead_a]
@[simp] theorem afterRead16_x (s : State) (addr : Addr) : (afterRead16 s addr).x = s.x := by
  simp only [afterRead16, afterRead_x]
@[simp] theorem afterRead16_y (s : State) (addr : Addr) : (afterRead16 s addr).y = s.y := by
  simp only [afterRead16, afterRead_y]
@[simp] theorem afterRead16_sp (s : State) (addr : Addr) : (afterRead16 s addr).sp = s.sp := by
  simp only [afterRead16, afterRead_sp]
@[simp] theorem afterRead16_pc (s : State) (addr : Addr) : (afterRead16 s addr).pc = s.pc := by
  simp only [afterRead16, afterRead_pc]
@[simp] theorem afterRead16_p (s : State) (addr : Addr) : (afterRead16 s addr).p = s.p := by
  simp only [afterRead16, afterRead_p]
@[simp] theorem afterRead16_fault (s : State) (addr : Addr) : (afterRead16 s addr).fault = s.fault := by
  simp only [afterRead16, afterRead_fault]
@[simp] theorem afterRead16_ram (s : State) (addr : Addr) : (afterRead16 s addr).ram = s.ram := by
  simp only [afterRead16, afterRead_ram]
@[simp] theorem afterRead16_prgRam (s : State) (addr : Addr) : (afterRead16 s addr).prgRam = s.prgRam := by
  simp only [afterRead16, afterRead_prgRam]
@[simp] theorem afterRead16_irq (s : State) (addr : Addr) : (afterRead16 s addr).irq = s.irq := by
  simp only [afterRead16, afterRead_irq]
@[simp] theorem afterRead16_nmi (s : State) (addr : Addr) : (afterRead16 s addr).nmi = s.nmi := by
  simp only [afterRead16, afterRead_nmi]
@[simp] theorem afterRead16_nmiPending (s : State) (addr : Addr) : (afterRead16 s addr).nmiPending = s.nmiPending := by
  simp only [afterRead16, afterRead_nmiPending]
@[simp] theorem afterRead16_cfg (s : State) (addr : Addr) : (afterRead16 s addr).cfg = s.cfg := by
  simp only [afterRead16, afterRead_cfg]

/-! ### afterEntryPushes -/

@[simp] theorem afterEntryPushes_a (s : State) (returnTo : Addr) (b4 : Bool) : (afterEntryPushes s returnTo b4).a = s.a := by
  simp only [afterEntryPushes, afterPush_a, afterPush16_a]
@[simp] theorem afterEntryPushes_x (s : State) (returnTo : Addr) (b4 : Bool) : (afterEntryPushes s returnTo b4).x = s.x := by
  simp only [afterEntryPushes, afterPush_x, afterPush16_x]
@[simp] theorem afterEntryPushes_y (s : State) (returnTo : Addr) (b4 : Bool) : (afterEntryPushes s returnTo b4).y = s.y := by
  simp only [afterEntryPushes, afterPush_y, afterPush16_y]
@[simp] theorem afterEntryPushes_pc (s : State) (returnTo : Addr) (b4 : Bool) : (afterEntryPushes s returnTo b4).pc = s.pc := by
  simp only [afterEntryPushes, afterPush_pc, afterPush16_pc]
@[simp] theorem afterEntryPushes_p (s : State) (returnTo : Addr) (b4 : Bool) : (afterEntryPushes s returnTo b4).p = s.p := by
  simp only [afterEntryPushes, afterPush_p, afterPush16_p]
@[simp] theorem afterEntryPushes_fault (s : State) (returnTo : Addr) (b4 : Bool) : (afterEntryPushes s returnTo b4).fault = s.fault := by
  simp only [afterEntryPushes, afterPush_fault, afterPush16_fault]
@[simp] theorem afterEntryPushes_irq (s : State) (returnTo : Addr) (b4 : Bool) : (afterEntryPushes s returnTo b4).irq = s.irq := by
  simp only [afterEntryPushes, afterPush_irq, afterPush16_irq]
@[simp] theorem afterEntryPushes_nmi (s : State) (returnTo : Addr) (b4 : Bool) : (afterEntryPushes s returnTo b4).nmi = s.nmi := by
  simp only [afterEntryPushes, afterPush_nmi, afterPush16_nmi]
@[simp] theorem afterEntryPushes_nmiPending (s : State) (returnTo : Addr) (b4 : Bool) : (afterEntryPushes s returnTo b4).nmiPending = s.nmiPending := by
  simp only [afterEntryPushes, afterPush_nmiPending, afterPush16_nmiPending]
@[simp] theorem afterEntryPushes_cfg (s : State) (returnTo : Addr) (b4 : Bool) : (afterEntryPushes s returnTo b4).cfg = s.cfg := by
  simp only [afterEntryPushes, afterPush_cfg, afterPush16_cfg]
@[simp] theorem afterEntryPushes_draws (s : State) (returnTo : Addr) (b4 : Bool) : (afterEntryPushes s returnTo b4).draws = s.draws := by
  simp only [afterEntryPushes, afterPush_draws, afterPush16_draws]

/-! ### afterEntry -/

@[simp] theorem afterEntry_a (s : State) (returnTo : Addr) (b4 : Bool) (vector : Addr) :
    (afterEntry s returnTo b4 vector).a = s.a := by
  simp only [afterEntry, afterRead16, afterRead_a, afterEntryPushes_a]
@[simp] theorem afterEntry_x (s : State) (returnTo : Addr) (b4 : Bool) (vector : Addr) :
    (afterEntry s returnTo b4 vector).x = s.x := by
  simp only [afterEntry, afterRead16, afterRead_x, afterEntryPushes_x]
@[simp] theorem afterEntry_y (s : State) (returnTo : Addr) (b4 : Bool) (vector : Addr) :
    (afterEntry s returnTo b4 vector).y = s.y := by
  simp only [afterEntry, afterRead16, afterRead_y, afterEntryPushes_y]
@[simp] theorem afterEntry_fault (s : State) (returnTo : Addr) (b4 : Bool) (vector : Addr) :
    (afterEntry s returnTo b4 vector).fault = s.fault := by
  simp only [afterEntry, afterRead16, afterRead_fault, afterEntryPushes_fault]
@[simp] theorem afterEntry_irq (s : State) (returnTo : Addr) (b4 : Bool) (vector : Addr) :
    (afterEntry s returnTo b4 vector).irq = s.irq := by
  simp only [afterEntry, afterRead16, afterRead_irq, afterEntryPushes_irq]
@[simp] theorem afterEntry_nmi (s : State) (returnTo : Addr) (b4 : Bool) (vector : Addr) :
    (afterEntry s returnTo b4 vector).nmi = s.nmi := by
  simp only [afterEntry, afterRead16, afterRead_nmi, afterEntryPushes_nmi]
@[simp] theorem afterEntry_nmiPending (s : State) (returnTo : Addr) (b4 : Bool) (vector : Addr) :
    (afterEntry s returnTo b4 vector).nmiPending = s.nmiPending := by
  simp only [afterEntry, afterRead16, afterRead_nmiPending, afterEntryPushes_nmiPending]
@[simp] theorem afterEntry_cfg (s : State) (returnTo : Addr) (b4 : Bool) (vector : Addr) :
    (afterEntry s returnTo b4 vector).cfg = s.cfg := by
  simp only [afterEntry, afterRead16, afterRead_cfg, afterEntryPushes_cfg]
@[simp] theorem afterEntry_p (s : State) (returnTo : Addr) (b4 : Bool) (vector : Addr) :
    (afterEntry s returnTo b4 vector).p = { s.p with i := true } := rfl
@[simp] theorem afterEntry_ram (s : State) (returnTo : Addr) (b4 : Bool) (vector : Addr) :
    (afterEntry s returnTo b4 vector).ram = (afterEntryPushes s returnTo b4).ram := rfl
@[simp] theorem afterEntry_prgRam (s : State) (returnTo : Addr) (b4 : Bool) (vector : Addr) :
    (afterEntry s returnTo b4 vector).prgRam = (afterEntryPushes s returnTo b4).prgRam := rfl
@[simp] theorem afterEntry_sp (s : State) (returnTo : Addr) (b4 : Bool) (vector : Addr) :
    (afterEntry s returnTo b4 vector).sp = (afterEntryPushes s returnTo b4).sp := rfl

end Sys2Proof.Machine
end

