-- ==== Sys2Proof/Laws/Words.lean ====
section
/-! SUPPORT. The laws of bytes and words: a word's two bytes, the zero page and the stack page. -/

namespace Sys2Proof

/-- The number a word's bytes make (R7). -/
theorem toNat_joinBytes (hi lo : Byte) : (joinBytes hi lo).toNat = 256 * hi.toNat + lo.toNat := by
  have hlo := lo.isLt
  have hhi := hi.isLt
  have h16 : hi.toNat % 65536 = hi.toNat := by omega
  have l16 : lo.toNat % 65536 = lo.toNat := by omega
  have s16 : 2 ^ 8 * hi.toNat % 65536 = 2 ^ 8 * hi.toNat := by omega
  rw [joinBytes, BitVec.toNat_or, BitVec.toNat_shiftLeft, BitVec.toNat_setWidth, BitVec.toNat_setWidth,
    Nat.shiftLeft_eq, Nat.mul_comm]
  simp only [Nat.reducePow] at *
  rw [h16, l16, s16]
  exact (Nat.two_pow_add_eq_or_of_lt (i := 8) (by omega) hi.toNat).symm

@[simp] theorem lowByte_joinBytes (hi lo : Byte) : lowByte (joinBytes hi lo) = lo := by
  apply BitVec.eq_of_toNat_eq
  have := lo.isLt
  simp [lowByte, toNat_joinBytes]
  omega

@[simp] theorem highByte_joinBytes (hi lo : Byte) : highByte (joinBytes hi lo) = hi := by
  apply BitVec.eq_of_toNat_eq
  have := lo.isLt
  have := hi.isLt
  simp [highByte, toNat_joinBytes, Nat.shiftRight_eq_div_pow]
  omega

@[simp] theorem joinBytes_highByte_lowByte (w : Addr) : joinBytes (highByte w) (lowByte w) = w := by
  apply BitVec.eq_of_toNat_eq
  have := w.isLt
  simp [toNat_joinBytes, highByte, lowByte, Nat.shiftRight_eq_div_pow]
  omega

@[simp] theorem toNat_zext16 (v : Byte) : (zext16 v).toNat = v.toNat := by
  have := v.isLt
  simp [zext16]
  omega

namespace Machine

theorem toNat_stackAddr (sp : Byte) : (stackAddr sp).toNat = 256 + sp.toNat := by
  have := sp.isLt
  simp [stackAddr, BitVec.toNat_add]
  omega

/-- The zero page is internal RAM, its cell numbered by the byte (R49). -/
@[simp] theorem route_zext16 (c : Config) (v : Byte) : route c (zext16 v) = .ram v.toNat := by
  have := v.isLt
  have h : zext16 v < 0x2000 := by simp [BitVec.lt_def]; omega
  simp only [route, h, if_true, ramBytes, toNat_zext16, Target.ram.injEq]
  omega

/-- The stack page is internal RAM, cells 256 to 511 (R49). -/
@[simp] theorem route_stackAddr (c : Config) (sp : Byte) : route c (stackAddr sp) = .ram (256 + sp.toNat) := by
  have := sp.isLt
  have h : stackAddr sp < 0x2000 := by simp [BitVec.lt_def, toNat_stackAddr]; omega
  simp only [route, h, if_true, ramBytes, toNat_stackAddr, Target.ram.injEq]
  omega

end Machine
end Sys2Proof
end

