-- ==== Sys2Proof/Laws/Bus.lean ====
section
/-! SUPPORT. One lemma per operation of the bus: when its transactions are performed it answers exactly what
Machine/Effects.lean says, and otherwise it raises the access the arbiter refused. Cite these; do not unfold the operations. -/

namespace Sys2Proof.Machine

/-! ### Sequencing -/

theorem bind_ok {α β : Type} {x : Bus α} {f : α → Bus β} {s t : State} {a : α} (h : x s = .ok a t) :
    (x >>= f) s = f a t := by
  simp [bind, EStateM.bind, h]

theorem bind_error {α β : Type} {x : Bus α} {f : α → Bus β} {s t : State} {e : Fault} (h : x s = .error e t) :
    (x >>= f) s = .error e t := by
  simp [bind, EStateM.bind, h]

@[simp] theorem pure_run {α : Type} (a : α) (s : State) : (pure a : Bus α) s = .ok a s := rfl

@[simp] theorem get_bind {β : Type} (f : State → Bus β) (s : State) : ((get : Bus State) >>= f) s = f s s := rfl

@[simp] theorem modify_run (g : State → State) (s : State) : (modify g : Bus Unit) s = .ok () (g s) := rfl

@[simp] theorem modify_bind {β : Type} (g : State → State) (f : Unit → Bus β) (s : State) :
    ((modify g : Bus Unit) >>= f) s = f () (g s) := rfl

@[simp] theorem setPc_run (w : Addr) (s : State) : setPc w s = .ok () { s with pc := w } := rfl

@[simp] theorem advance_run (n : Nat) (s : State) :
    advance n s = .ok () { s with pc := s.pc + BitVec.ofNat 16 n } := rfl

@[simp] theorem advance_bind {β : Type} (n : Nat) (f : Unit → Bus β) (s : State) :
    (advance n >>= f) s = f () { s with pc := s.pc + BitVec.ofNat 16 n } := rfl

/-- What a run of an instruction's body answers (R3, R306). -/
theorem runInstr_ok {body : Bus Unit} {s t : State} (h : body s = .ok () t) : runInstr body s = .next t := by
  simp [runInstr, h]

theorem runInstr_error {body : Bus Unit} {s t : State} {f : Fault} (h : body s = .error f t) :
    runInstr body s = .next (latchFault s f t) := by
  simp [runInstr, h]

/-! ### Claimed addresses (R54) -/

/-- Without the strict policy every address is claimed (R54). -/
theorem claimed_of_not_strict {c : Config} (h : c.strictUnmapped = false) (addr : Addr) : claimed c addr = true := by
  simp [claimed, h]

@[simp] theorem claimed_zext16 (c : Config) (v : Byte) : claimed c (zext16 v) = true := by
  simp [claimed]

@[simp] theorem claimed_stackAddr (c : Config) (sp : Byte) : claimed c (stackAddr sp) = true := by
  simp [claimed]

theorem claimed_eq_false {c : Config} {addr : Addr} :
    claimed c addr = false ↔ c.strictUnmapped = true ∧ route c addr = .unclaimed := by
  simp [claimed]

/-- An address is claimed or not whatever happened to the rest of the state. -/
theorem route_eq_of_claimed {c : Config} {addr : Addr} (h : claimed c addr = true) (hr : route c addr = .unclaimed) :
    c.strictUnmapped = false := by
  simpa [claimed, hr] using h

/-! ### One transaction (R41, R49 to R54) -/

theorem memRead_ok {s : State} {addr : Addr} (h : claimed s.cfg addr = true) :
    memRead addr s = .ok (answer s addr) (afterRead s addr) := by
  unfold memRead
  cases hr : route s.cfg addr
  case unclaimed => simp [answer, afterRead, hr, State.issue, route_eq_of_claimed h hr]
  all_goals simp [answer, afterRead, hr, State.issue]

theorem memRead_error {s : State} {addr : Addr} (h : claimed s.cfg addr = false) :
    memRead addr s = .error (.unmappedMemoryAccess addr .read) s := by
  obtain ⟨hs, hr⟩ := claimed_eq_false.1 h
  simp [memRead, hr, hs]

theorem memWrite_ok {s : State} {addr : Addr} (v : Byte) (h : claimed s.cfg addr = true) :
    memWrite addr v s = .ok () (afterWrite s addr v) := by
  unfold memWrite afterWrite
  cases hr : route s.cfg addr <;> simp [State.issue]
  exact route_eq_of_claimed h hr

theorem memWrite_error {s : State} {addr : Addr} (v : Byte) (h : claimed s.cfg addr = false) :
    memWrite addr v s = .error (.unmappedMemoryAccess addr .write) s := by
  obtain ⟨hs, hr⟩ := claimed_eq_false.1 h
  simp [memWrite, hr, hs]

/-! ### What a transaction changes -/

/-- A read outside the device windows uses no device answer (R46). -/
theorem afterRead_draws {s : State} {addr : Addr} (h : ∀ r, route s.cfg addr ≠ .device r) :
    (afterRead s addr).draws = s.draws := by
  simp only [afterRead]

/-- A read answers the same after a read, but for a device's next answer (R46). -/
theorem answer_afterRead {s : State} {addr other : Addr} (h : ∀ r, route s.cfg other ≠ .device r) :
    answer (afterRead s other) addr = answer s addr := by
  unfold answer
  simp [afterRead_draws h]

/-- Reading a byte of internal RAM (R49). -/
theorem answer_of_ram {s : State} {addr : Addr} {k : Nat} (h : route s.cfg addr = .ram k) :
    answer s addr = s.ram.read k := by
  simp [answer, h]

theorem answer_zext16 (s : State) (v : Byte) : answer s (zext16 v) = s.ram.read v.toNat := by
  simp [answer]

theorem answer_stackAddr (s : State) (sp : Byte) : answer s (stackAddr sp) = s.ram.read (256 + sp.toNat) := by
  simp [answer]

@[simp] theorem afterRead_stack_draws (s : State) (sp : Byte) : (afterRead s (stackAddr sp)).draws = s.draws :=
  afterRead_draws (by simp)

@[simp] theorem afterPull_draws (s : State) : (afterPull s).draws = s.draws := afterRead_stack_draws s _

@[simp] theorem afterPush_ram (s : State) (v : Byte) :
    (afterPush s v).ram = s.ram.write (256 + s.sp.toNat) v := by
  simp [afterPush, afterWrite]

@[simp] theorem afterPush_prgRam (s : State) (v : Byte) : (afterPush s v).prgRam = s.prgRam := by
  simp [afterPush, afterWrite]

@[simp] theorem afterPush16_prgRam (s : State) (w : Addr) : (afterPush16 s w).prgRam = s.prgRam := by
  simp [afterPush16]

@[simp] theorem afterEntryPushes_prgRam (s : State) (returnTo : Addr) (b4 : Bool) :
    (afterEntryPushes s returnTo b4).prgRam = s.prgRam := by
  simp [afterEntryPushes]

/-- A written byte reads back where an array holds it (R49, R53, R60). -/
theorem answer_afterWrite_ram {s : State} {addr : Addr} (v : Byte) {k : Nat} (h : route s.cfg addr = .ram k) :
    answer (afterWrite s addr v) addr = v := by
  simp [answer, afterWrite, h]

/-- A write leaves every byte behind another cell as it was (R60). -/
theorem peek_afterWrite_other {s : State} {addr other : Addr} (v : Byte) (h : route s.cfg other ≠ route s.cfg addr) :
    peek (afterWrite s addr v) other = peek s other := by
  unfold peek
  cases ho : route s.cfg other <;> cases ha : route s.cfg addr <;>
    simp_all [afterWrite, Memory.read_write]

@[simp] theorem peek_afterRead (s : State) (addr other : Addr) : peek (afterRead s addr) other = peek s other := rfl

/-- The three pushes of an entry, field by field (R56, R58, R205, R315). -/
theorem afterEntryPushes_eq (s : State) (returnTo : Addr) (b4 : Bool) : afterEntryPushes s returnTo b4 = { s with
    ram := ((s.ram.write (0x0100 + s.sp.toNat) (highByte returnTo)).write (0x0100 + (s.sp - 1).toNat)
      (lowByte returnTo)).write (0x0100 + (s.sp - 2).toNat) (statusByte s.p b4)
    sp := s.sp - 3
    bus := s.bus ++ [.write (0x0100 + s.sp.setWidth 16) (highByte returnTo),
      .write (0x0100 + (s.sp - 1).setWidth 16) (lowByte returnTo),
      .write (0x0100 + (s.sp - 2).setWidth 16) (statusByte s.p b4)] } := by
  have e2 : s.sp - 2 = s.sp - 1 - 1 := by bv_omega
  have e3 : s.sp - 3 = s.sp - 1 - 1 - 1 := by bv_omega
  rw [e2, e3]
  simp [afterEntryPushes, afterPush16, afterPush, afterWrite]
  simp [stackAddr, zext16]

/-- The three pushes of an entry leave every byte behind a cell other than their own (R60, R205, R315). -/
theorem peek_afterEntryPushes_other {s : State} {returnTo : Addr} {b4 : Bool} {addr : Addr}
    (h : route s.cfg addr ≠ route s.cfg (stackAddr s.sp)) (h1 : route s.cfg addr ≠ route s.cfg (stackAddr (s.sp - 1)))
    (h2 : route s.cfg addr ≠ route s.cfg (stackAddr (s.sp - 2))) :
    peek (afterEntryPushes s returnTo b4) addr = peek s addr := by
  have e : s.sp - 1 - 1 = s.sp - 2 := by bv_omega
  refine (peek_afterWrite_other _ ?_).trans ((peek_afterWrite_other _ ?_).trans (peek_afterWrite_other _ h))
  · simpa only [afterPush16, afterPush, afterWrite, e] using h2
  · exact h1

/-- An address a read would answer without a transaction is claimed. -/
theorem claimed_of_peek {s : State} {a : Addr} {b : Byte} (h : peek s a = some b) : claimed s.cfg a = true := by
  unfold peek at h
  unfold claimed
  cases hr : route s.cfg a <;> simp_all

theorem answer_of_peek {s : State} {a : Addr} {b : Byte} (h : peek s a = some b) : answer s a = b := by
  unfold peek at h
  unfold answer
  cases hr : route s.cfg a <;> simp_all

/-! ### Two-byte reads (R42, R43) -/

theorem read16_ok {s : State} {addr : Addr} (h : claimed16 s.cfg addr = true) :
    read16 addr s = .ok (answer16 s addr) (afterRead16 s addr) := by
  simp only [claimed16, Bool.and_eq_true] at h
  unfold read16
  rw [bind_ok (memRead_ok h.1), bind_ok (memRead_ok (s := afterRead s addr) h.2)]
  rfl

theorem read16_error_low {s : State} {addr : Addr} (h : claimed s.cfg addr = false) :
    read16 addr s = .error (.unmappedMemoryAccess addr .read) s := by
  unfold read16
  exact bind_error (memRead_error h)

theorem read16_error_high {s : State} {addr : Addr} (h : claimed s.cfg addr = true)
    (h' : claimed s.cfg (addr + 1) = false) :
    read16 addr s = .error (.unmappedMemoryAccess (addr + 1) .read) (afterRead s addr) := by
  unfold read16
  rw [bind_ok (memRead_ok h)]
  exact bind_error (memRead_error (s := afterRead s addr) h')

/-- The zero-page pointer read never faults and uses no device answer (R43, R49). -/
theorem read16zp_run (s : State) (p : Byte) :
    read16zp p s = .ok (zpPointer s p) { s with bus := s.bus ++ zpPointerReads s p } := by
  unfold read16zp
  rw [bind_ok (memRead_ok (claimed_zext16 _ _)), bind_ok (memRead_ok (s := afterRead s _) (claimed_zext16 _ _))]
  simp [answer, afterRead, zpPointer, zpPointerReads]

/-! ### The stack engine (R56 to R59): it never faults, its page being internal RAM -/

theorem push_run (s : State) (v : Byte) : push v s = .ok () (afterPush s v) := by
  unfold push
  rw [get_bind, bind_ok (memWrite_ok v (claimed_stackAddr _ _)), modify_run]
  rfl

theorem pull_run (s : State) : pull s = .ok (pullByte s) (afterPull s) := by
  unfold pull
  rw [modify_bind, get_bind, memRead_ok (claimed_stackAddr _ _)]
  rfl

theorem push16_run (s : State) (w : Addr) : push16 w s = .ok () (afterPush16 s w) := by
  unfold push16
  rw [bind_ok (push_run s _), push_run]
  rfl

theorem pull16_run (s : State) : pull16 s = .ok (pullWord s) (afterPull16 s) := by
  unfold pull16
  rw [bind_ok (pull_run s), bind_ok (pull_run _)]
  rfl

/-- A pull after a push answers the pushed byte (R57). -/
theorem pullByte_afterPush (s : State) (v : Byte) : pullByte (afterPush s v) = v := by
  simp [pullByte, answer]

/-! ### Entering a handler and returning (R204, R205, R315) -/

theorem enterHandler_ok {s : State} {vector : Addr} (returnTo : Addr) (b4 : Bool) (h : claimed16 s.cfg vector = true) :
    enterHandler returnTo b4 vector s = .ok () (afterEntry s returnTo b4 vector) := by
  unfold enterHandler
  rw [bind_ok (push16_run s returnTo), get_bind, bind_ok (push_run _ _), modify_bind,
    bind_ok (read16_ok (by simpa using h)), setPc_run]
  rfl

/-- Both vectors lie in the cartridge space, so a vector read that faults does so at its low byte, the pushes done. -/
theorem enterHandler_error {s : State} {vector : Addr} (returnTo : Addr) (b4 : Bool)
    (h : claimed s.cfg vector = false) :
    enterHandler returnTo b4 vector s = .error (.unmappedMemoryAccess vector .read)
      { afterEntryPushes s returnTo b4 with p := { s.p with i := true } } := by
  unfold enterHandler
  rw [bind_ok (push16_run s returnTo), get_bind, bind_ok (push_run _ _), modify_bind,
    bind_error (read16_error_low (by simpa using h))]
  rfl

theorem returnFromHandler_run (s : State) : returnFromHandler s = .ok () (afterReturn s) := by
  unfold returnFromHandler
  rw [bind_ok (pull_run s), modify_bind, bind_ok (pull16_run _), setPc_run]
  rfl

end Sys2Proof.Machine
end

