-- ==== Sys2Proof/Laws/Operands.lean ====
section
/-! SUPPORT. One lemma per operation of the resolver and of the instruction shapes built on it: what it answers, and when it
raises. -/

namespace Sys2Proof.Machine

@[simp] theorem operandClaimed_immediate (v : Byte) (s : State) : operandClaimed (.immediate v) s = true := rfl
@[simp] theorem operandClaimed_accumulator (s : State) : operandClaimed .accumulator s = true := rfl

/-- Resolution never faults; it reads nothing but the pointers of the two indirect modes (R102 to R111, R118). -/
theorem resolve_run (m : Mode) (s : State) : resolve m s = .ok (modeLoc m s) (afterResolve m s) := by
  cases m
  case indexedIndirectX b =>
    simp only [resolve, get_bind]
    rw [bind_ok (read16zp_run s _)]
    rfl
  case indirectIndexedY b =>
    simp only [resolve, get_bind]
    rw [bind_ok (read16zp_run s _)]
    rfl
  all_goals simp [resolve, modeLoc, afterResolve, modeReads]

theorem readLoc_ok {loc : Loc} {s : State} (h : locClaimed s.cfg loc = true) :
    readLoc loc s = .ok (locByte loc s) (afterLocRead loc s) := by
  cases loc with
  | imm v => rfl
  | acc => rfl
  | mem addr => exact memRead_ok h

theorem writeLoc_ok {loc : Loc} {s : State} (v : Byte) (h : locClaimed s.cfg loc = true) :
    writeLoc loc v s = .ok () (afterLocWrite loc v s) := by
  cases loc with
  | imm _ => rfl
  | acc => rfl
  | mem addr => exact memWrite_ok v h

/-- Only a memory location can be unclaimed (R306). -/
theorem locClaimed_eq_false {c : Config} {loc : Loc} (h : locClaimed c loc = false) :
    ∃ addr, loc = .mem addr ∧ claimed c addr = false := by
  cases loc <;> simp_all [locClaimed]

theorem readOperand_ok {m : Mode} {s : State} (h : operandClaimed m s = true) :
    readOperand m s = .ok (operandByte m s) { afterOperand m s with pc := s.pc + BitVec.ofNat 16 (modeLength m) } := by
  unfold readOperand
  rw [advance_bind, bind_ok (resolve_run m _), readLoc_ok (by exact h)]
  cases m <;> rfl

theorem readOperand_error {m : Mode} {s : State} {addr : Addr} (h : modeLoc m s = .mem addr)
    (h' : claimed s.cfg addr = false) :
    readOperand m s = .error (.unmappedMemoryAccess addr .read)
      { afterResolve m s with pc := s.pc + BitVec.ofNat 16 (modeLength m) } := by
  have hl : modeLoc m { s with pc := s.pc + BitVec.ofNat 16 (modeLength m) } = .mem addr := by
    rw [← h]; cases m <;> rfl
  unfold readOperand
  rw [advance_bind, bind_ok (resolve_run m _), hl]
  simp only [readLoc]
  rw [memRead_error (by exact h')]
  cases m <;> rfl

theorem store_ok {m : Mode} {s : State} (r : State → Byte) (h : operandClaimed m s = true)
    (hr : ∀ bus pc, r { s with bus := bus, pc := pc } = r s) :
    store m r s = .ok () { afterStore m (r s) s with pc := s.pc + BitVec.ofNat 16 (modeLength m) } := by
  unfold store
  rw [advance_bind, bind_ok (resolve_run m _), get_bind, writeLoc_ok _ (by exact h)]
  have : r (afterResolve m { s with pc := s.pc + BitVec.ofNat 16 (modeLength m) }) = r s := hr _ _
  rw [this]
  cases m <;> rfl

theorem store_error {m : Mode} {s : State} {addr : Addr} (r : State → Byte) (h : modeLoc m s = .mem addr)
    (h' : claimed s.cfg addr = false) :
    store m r s = .error (.unmappedMemoryAccess addr .write)
      { afterResolve m s with pc := s.pc + BitVec.ofNat 16 (modeLength m) } := by
  have hl : modeLoc m { s with pc := s.pc + BitVec.ofNat 16 (modeLength m) } = .mem addr := by
    rw [← h]; cases m <;> rfl
  unfold store
  rw [advance_bind, bind_ok (resolve_run m _), get_bind, hl]
  simp only [writeLoc]
  rw [memWrite_error _ (by exact h')]
  cases m <;> rfl

/-- One read, one write, Carry from the old value, Z and N from the new one (R180). -/
theorem readModifyWrite_ok {m : Mode} {s : State} (result : Byte → Bool → Byte) (carry : Byte → Bool → Bool)
    (h : operandClaimed m s = true) :
    readModifyWrite m result carry s = .ok ()
      { afterModify m (result (operandByte m s) s.p.c) s with
        p := setZN (result (operandByte m s) s.p.c) { s.p with c := carry (operandByte m s) s.p.c }
        pc := s.pc + BitVec.ofNat 16 (modeLength m) } := by
  unfold readModifyWrite
  rw [advance_bind, bind_ok (resolve_run m _), bind_ok (readLoc_ok (by exact h)), get_bind, modify_bind]
  cases m <;> (rw [bind_ok (writeLoc_ok _ (by exact h)), modify_run]; rfl)

theorem readModifyWrite_error {m : Mode} {s : State} {addr : Addr} (result : Byte → Bool → Byte)
    (carry : Byte → Bool → Bool) (h : modeLoc m s = .mem addr) (h' : claimed s.cfg addr = false) :
    readModifyWrite m result carry s = .error (.unmappedMemoryAccess addr .read)
      { afterResolve m s with pc := s.pc + BitVec.ofNat 16 (modeLength m) } := by
  have hl : modeLoc m { s with pc := s.pc + BitVec.ofNat 16 (modeLength m) } = .mem addr := by
    rw [← h]; cases m <;> rfl
  unfold readModifyWrite
  rw [advance_bind, bind_ok (resolve_run m _), hl]
  simp only [readLoc]
  rw [bind_error (memRead_error (by exact h'))]
  cases m <;> rfl

/-! ### What reading an operand leaves of each field (R116) -/

@[simp] theorem afterOperand_a (m : Mode) (s : State) : (afterOperand m s).a = s.a := by
  cases m <;> rfl

@[simp] theorem afterOperand_x (m : Mode) (s : State) : (afterOperand m s).x = s.x := by
  cases m <;> rfl

@[simp] theorem afterOperand_y (m : Mode) (s : State) : (afterOperand m s).y = s.y := by
  cases m <;> rfl

@[simp] theorem afterOperand_sp (m : Mode) (s : State) : (afterOperand m s).sp = s.sp := by
  cases m <;> rfl

@[simp] theorem afterOperand_pc (m : Mode) (s : State) : (afterOperand m s).pc = s.pc := by
  cases m <;> rfl

@[simp] theorem afterOperand_p (m : Mode) (s : State) : (afterOperand m s).p = s.p := by
  cases m <;> rfl

@[simp] theorem afterOperand_fault (m : Mode) (s : State) : (afterOperand m s).fault = s.fault := by
  cases m <;> rfl

@[simp] theorem afterOperand_ram (m : Mode) (s : State) : (afterOperand m s).ram = s.ram := by
  cases m <;> rfl

@[simp] theorem afterOperand_prgRam (m : Mode) (s : State) : (afterOperand m s).prgRam = s.prgRam := by
  cases m <;> rfl

@[simp] theorem afterOperand_irq (m : Mode) (s : State) : (afterOperand m s).irq = s.irq := by
  cases m <;> rfl

@[simp] theorem afterOperand_nmi (m : Mode) (s : State) : (afterOperand m s).nmi = s.nmi := by
  cases m <;> rfl

@[simp] theorem afterOperand_nmiPending (m : Mode) (s : State) : (afterOperand m s).nmiPending = s.nmiPending := by
  cases m <;> rfl

@[simp] theorem afterOperand_cfg (m : Mode) (s : State) : (afterOperand m s).cfg = s.cfg := by
  cases m <;> rfl

/-- An instruction that reads its operand and then only changes the state. -/
theorem operandThen_ok {m : Mode} {s : State} (g : Byte → State → State) (h : operandClaimed m s = true) :
    (readOperand m >>= fun v => modify (g v)) s = .ok ()
      (g (operandByte m s) { afterOperand m s with pc := s.pc + BitVec.ofNat 16 (modeLength m) }) := by
  rw [bind_ok (readOperand_ok h), modify_run]

theorem operandThen_error {m : Mode} {s : State} {addr : Addr} (g : Byte → State → State) (h : modeLoc m s = .mem addr)
    (h' : claimed s.cfg addr = false) :
    (readOperand m >>= fun v => (modify (g v) : Bus Unit)) s = .error (.unmappedMemoryAccess addr .read)
      { afterResolve m s with pc := s.pc + BitVec.ofNat 16 (modeLength m) } :=
  bind_error (readOperand_error h h')

end Sys2Proof.Machine
end

