-- ==== Sys2Proof/Laws/Instructions.lean ====
section
/-! SUPPORT. What the operation of each instruction with an operand does when the operand is claimed: one lemma per
operation (spec/41_load_store.md, spec/42_alu.md). Where the operand is unclaimed, all of them stop as
`operandThen_error` says. -/

namespace Sys2Proof.Machine

theorem lda_ok {m : Mode} {s : State} (h : operandClaimed m s = true) :
    lda m s = .ok () { afterOperand m s with
      a := operandByte m s, p := setZN (operandByte m s) s.p, pc := s.pc + BitVec.ofNat 16 (modeLength m) } :=
  (operandThen_ok (fun v t => { t with a := v, p := setZN v t.p }) h).trans (by simp)

theorem ldx_ok {m : Mode} {s : State} (h : operandClaimed m s = true) :
    ldx m s = .ok () { afterOperand m s with
      x := operandByte m s, p := setZN (operandByte m s) s.p, pc := s.pc + BitVec.ofNat 16 (modeLength m) } :=
  (operandThen_ok (fun v t => { t with x := v, p := setZN v t.p }) h).trans (by simp)

theorem ldy_ok {m : Mode} {s : State} (h : operandClaimed m s = true) :
    ldy m s = .ok () { afterOperand m s with
      y := operandByte m s, p := setZN (operandByte m s) s.p, pc := s.pc + BitVec.ofNat 16 (modeLength m) } :=
  (operandThen_ok (fun v t => { t with y := v, p := setZN v t.p }) h).trans (by simp)

theorem ora_ok {m : Mode} {s : State} (h : operandClaimed m s = true) :
    ora m s = .ok () { afterOperand m s with
      a := s.a ||| operandByte m s, p := setZN (s.a ||| operandByte m s) s.p, pc := s.pc + BitVec.ofNat 16 (modeLength m) } :=
  (operandThen_ok (fun v t => { t with a := t.a ||| v, p := setZN (t.a ||| v) t.p }) h).trans (by simp)

theorem andA_ok {m : Mode} {s : State} (h : operandClaimed m s = true) :
    andA m s = .ok () { afterOperand m s with
      a := s.a &&& operandByte m s, p := setZN (s.a &&& operandByte m s) s.p, pc := s.pc + BitVec.ofNat 16 (modeLength m) } :=
  (operandThen_ok (fun v t => { t with a := t.a &&& v, p := setZN (t.a &&& v) t.p }) h).trans (by simp)

theorem eor_ok {m : Mode} {s : State} (h : operandClaimed m s = true) :
    eor m s = .ok () { afterOperand m s with
      a := s.a ^^^ operandByte m s, p := setZN (s.a ^^^ operandByte m s) s.p, pc := s.pc + BitVec.ofNat 16 (modeLength m) } :=
  (operandThen_ok (fun v t => { t with a := t.a ^^^ v, p := setZN (t.a ^^^ v) t.p }) h).trans (by simp)

theorem adc_ok {m : Mode} {s : State} (h : operandClaimed m s = true) :
    adc m s = .ok () { afterOperand m s with
      a := addResult s.a (operandByte m s) s.p.c, p := addFlags s.a (operandByte m s) s.p, pc := s.pc + BitVec.ofNat 16 (modeLength m) } :=
  (operandThen_ok (fun v t => { t with a := addResult t.a v t.p.c, p := addFlags t.a v t.p }) h).trans (by simp)

theorem sbc_ok {m : Mode} {s : State} (h : operandClaimed m s = true) :
    sbc m s = .ok () { afterOperand m s with
      a := addResult s.a (~~~(operandByte m s)) s.p.c, p := addFlags s.a (~~~(operandByte m s)) s.p, pc := s.pc + BitVec.ofNat 16 (modeLength m) } :=
  (operandThen_ok (fun v t => { t with a := addResult t.a (~~~v) t.p.c, p := addFlags t.a (~~~v) t.p }) h).trans (by simp)

theorem cmp_ok {m : Mode} {s : State} (h : operandClaimed m s = true) :
    cmp m s = .ok () { afterOperand m s with
      p := compareFlags s.a (operandByte m s) s.p, pc := s.pc + BitVec.ofNat 16 (modeLength m) } :=
  (operandThen_ok (fun v t => { t with p := compareFlags t.a v t.p }) h).trans (by simp)

theorem cpx_ok {m : Mode} {s : State} (h : operandClaimed m s = true) :
    cpx m s = .ok () { afterOperand m s with
      p := compareFlags s.x (operandByte m s) s.p, pc := s.pc + BitVec.ofNat 16 (modeLength m) } :=
  (operandThen_ok (fun v t => { t with p := compareFlags t.x v t.p }) h).trans (by simp)

theorem cpy_ok {m : Mode} {s : State} (h : operandClaimed m s = true) :
    cpy m s = .ok () { afterOperand m s with
      p := compareFlags s.y (operandByte m s) s.p, pc := s.pc + BitVec.ofNat 16 (modeLength m) } :=
  (operandThen_ok (fun v t => { t with p := compareFlags t.y v t.p }) h).trans (by simp)

theorem bitTest_ok {m : Mode} {s : State} (h : operandClaimed m s = true) :
    bitTest m s = .ok () { afterOperand m s with
      p := bitTestFlags s.a (operandByte m s) s.p, pc := s.pc + BitVec.ofNat 16 (modeLength m) } :=
  (operandThen_ok (fun v t => { t with p := bitTestFlags t.a v t.p }) h).trans (by simp)

theorem sta_ok {m : Mode} {s : State} (h : operandClaimed m s = true) :
    sta m s = .ok () { afterStore m s.a s with pc := s.pc + BitVec.ofNat 16 (modeLength m) } :=
  store_ok State.a h fun _ _ => rfl

theorem stx_ok {m : Mode} {s : State} (h : operandClaimed m s = true) :
    stx m s = .ok () { afterStore m s.x s with pc := s.pc + BitVec.ofNat 16 (modeLength m) } :=
  store_ok State.x h fun _ _ => rfl

theorem sty_ok {m : Mode} {s : State} (h : operandClaimed m s = true) :
    sty m s = .ok () { afterStore m s.y s with pc := s.pc + BitVec.ofNat 16 (modeLength m) } :=
  store_ok State.y h fun _ _ => rfl

end Sys2Proof.Machine
end

