-- ==== Sys2Proof/Laws/Route.lean ====
section
/-! SUPPORT. The arbiter window by window (spec/20_memory.md R48 to R54): one lemma per window says where `route` sends its
addresses. -/

namespace Sys2Proof.Machine

theorem route_of_ram {c : Config} {addr : Addr} (h : addr < 0x2000) : route c addr = .ram (addr.toNat % 2048) := by
  rw [route, if_pos h]
  rfl

theorem and_ramMask (addr : Addr) : (addr &&& 0x07FF).toNat = addr.toNat % 2048 := by
  rw [BitVec.toNat_and]
  exact Nat.and_two_pow_sub_one_eq_mod addr.toNat 11

theorem route_of_picture {c : Config} {addr : Addr} (h : 0x2000 ≤ addr) (h' : addr < 0x4000) :
    route c addr = .device (.picture (addr.extractLsb' 0 3)) := by
  rw [route, if_neg (BitVec.not_lt.2 h), if_pos h']

theorem route_of_audioIo {c : Config} {addr : Addr} (h : 0x4000 ≤ addr) (h' : addr < 0x4020) :
    route c addr = .device (.audioIo (addr.extractLsb' 0 5)) := by
  have h2 : ¬ addr < 0x2000 := by bv_omega
  rw [route, if_neg h2, if_neg (BitVec.not_lt.2 h), if_pos h']

/-- From 0x4020 on the address is in the cartridge space (R52). -/
theorem route_of_cartridge {c : Config} {addr : Addr} (h : 0x4020 ≤ addr) :
    route c addr =
      if !c.cartPresent then .unclaimed
      else if addr < 0x6000 then .unclaimed
      else if addr < 0x8000 then .prgRam ((addr.toNat - 0x6000) % prgRamBytes c.prgRamSize)
      else .prgRom ((addr.toNat - 0x8000) % prgRomBytes c.prgRomSize) := by
  have h2 : ¬ addr < 0x2000 := by bv_omega
  have h4 : ¬ addr < 0x4000 := by bv_omega
  rw [route, if_neg h2, if_neg h4, if_neg (BitVec.not_lt.2 h)]

theorem route_of_noCartridge {c : Config} {addr : Addr} (h : 0x4020 ≤ addr) (hc : c.cartPresent = false) :
    route c addr = .unclaimed := by
  rw [route_of_cartridge h, hc]
  rfl

theorem route_of_nromLow {c : Config} {addr : Addr} (h : 0x4020 ≤ addr) (h' : addr < 0x6000) :
    route c addr = .unclaimed := by
  rw [route_of_cartridge h, if_pos h', ite_self]

theorem route_of_prgRam {c : Config} {addr : Addr} (hc : c.cartPresent = true) (h : 0x6000 ≤ addr) (h' : addr < 0x8000) :
    route c addr = .prgRam ((addr.toNat - 0x6000) % prgRamBytes c.prgRamSize) := by
  have h4 : 0x4020 ≤ addr := by bv_omega
  rw [route_of_cartridge h4, hc, if_neg (by decide), if_neg (BitVec.not_lt.2 h), if_pos h']

theorem route_of_prgRom {c : Config} {addr : Addr} (hc : c.cartPresent = true) (h : 0x8000 ≤ addr) :
    route c addr = .prgRom ((addr.toNat - 0x8000) % prgRomBytes c.prgRomSize) := by
  have h4 : 0x4020 ≤ addr := by bv_omega
  have h6 : ¬ addr < 0x6000 := by bv_omega
  rw [route_of_cartridge h4, hc, if_neg (by decide), if_neg h6, if_neg (BitVec.not_lt.2 h)]

/-- The unclaimed addresses (R54). -/
theorem route_eq_unclaimed {c : Config} {addr : Addr} : route c addr = .unclaimed ↔
    (c.cartPresent = false ∧ 0x4020 ≤ addr) ∨ (c.cartPresent = true ∧ 0x4020 ≤ addr ∧ addr < 0x6000) := by
  by_cases h4 : (0x4020 : Addr) ≤ addr
  · cases hc : c.cartPresent
    · simp_all [route_of_noCartridge h4 hc]
    · by_cases h6 : addr < 0x6000
      · simp_all [route_of_nromLow h4 h6]
      · rw [route_of_cartridge h4, hc, if_neg (by decide), if_neg h6]
        split <;> simp_all
  · have hl : addr < 0x4020 := BitVec.not_le.1 h4
    have : route c addr ≠ .unclaimed := by
      rw [route, if_pos hl]
      split
      · simp
      · split <;> simp
    simp_all

/-- Every index of RAM the arbiter gives is within RAM, and so for PRG RAM (R49, R53). -/
theorem route_ram_lt {c : Config} {addr : Addr} {k : Nat} (h : route c addr = .ram k) : k < ramBytes := by
  by_cases h2 : addr < 0x2000
  · rw [route_of_ram h2] at h
    cases h
    simp only [ramBytes]
    omega
  · rw [route, if_neg h2] at h
    repeat' split at h
    all_goals cases h

theorem route_prgRam_lt {c : Config} {addr : Addr} {k : Nat} (h : route c addr = .prgRam k) :
    k < prgRamBytes c.prgRamSize := by
  have pos : 0 < prgRamBytes c.prgRamSize := by cases c.prgRamSize <;> simp [prgRamBytes]
  unfold route at h
  repeat' split at h
  all_goals first | (simp at h; done) | skip
  rw [← Target.prgRam.inj h]
  exact Nat.mod_lt _ pos

/-- The two bytes of a vector are claimed together. -/
theorem claimed16_of_vector (c : Config) (v : Addr) (h : 0x8000 ≤ v) (h' : 0x8000 ≤ v + 1) : claimed16 c v = claimed c v := by
  unfold claimed16
  have : claimed c (v + 1) = claimed c v := by
    unfold claimed
    cases hc : c.cartPresent
    · rw [route_of_noCartridge (addr := v) (by bv_omega) hc, route_of_noCartridge (addr := v + 1) (by bv_omega) hc]
    · rw [route_of_prgRom (addr := v) hc h, route_of_prgRom (addr := v+1) hc h']
      have e1 : ∀ k, (Target.prgRom k == .unclaimed) = false := fun _ => rfl
      rw [e1, e1]
  rw [this]; simp

end Sys2Proof.Machine
end

