-- ==== Sys2Proof/Laws/Control.lean ====
section
/-! SUPPORT. The instructions without one of the ten modes that use the bus (spec/44_control.md R200 to R205,
spec/45_stack_transfer_flags.md R230 to R233): the next state of each, and where it latches a fault. The other
instructions without a mode answer their next state by `rfl`. -/

namespace Sys2Proof.Machine

/-! ### The stack's cells, written out (R49, R55 to R57) -/

theorem afterPush_eq (s : State) (v : Byte) : afterPush s v = { s with
    ram := s.ram.write (0x0100 + s.sp.toNat) v
    sp := s.sp - 1
    bus := s.bus ++ [.write (0x0100 + s.sp.setWidth 16) v] } := by
  simp [afterPush, afterWrite]
  rfl

theorem afterPull_eq (s : State) : afterPull s = { s with
    sp := s.sp + 1
    bus := s.bus ++ [.read (0x0100 + (s.sp + 1).setWidth 16) (s.ram.read (0x0100 + (s.sp + 1).toNat))] } := by
  simp [afterPull, afterRead, answer]
  rfl

theorem pullByte_eq (s : State) : pullByte s = s.ram.read (0x0100 + (s.sp + 1).toNat) := by
  simp [pullByte, answer]

/-- The status byte sets the flags it was made from (R26, R27). -/
theorem statusOfByte_statusByte (p : Status) (b4 : Bool) : statusOfByte (statusByte p b4) = p := by
  rcases p with ⟨c, z, i, d, v, n⟩
  revert c z i d v n b4
  decide

/-! ### Jumps, calls and returns -/

theorem jmpInd_ok {s : State} {p : Addr} (h : claimed s.cfg p = true)
    (h' : claimed s.cfg (joinBytes (highByte p) (lowByte p + 1)) = true) :
    exec (.jmpInd p) s = .next { afterRead (afterRead s p) (joinBytes (highByte p) (lowByte p + 1)) with
      pc := joinBytes (answer (afterRead s p) (joinBytes (highByte p) (lowByte p + 1))) (answer s p) } := by
  refine runInstr_ok ?_
  rw [advance_bind, bind_ok (memRead_ok (by exact h)), bind_ok (memRead_ok (by exact h'))]
  rfl

theorem jmpInd_error_low {s : State} {p : Addr} (h : claimed s.cfg p = false) :
    exec (.jmpInd p) s = .next (latchFault s (.unmappedMemoryAccess p .read) s) := by
  refine (runInstr_error (f := .unmappedMemoryAccess p .read) (t := { s with pc := s.pc + 3 }) ?_).trans rfl
  rw [advance_bind, bind_error (memRead_error (by exact h))]
  rfl

theorem jmpInd_error_high {s : State} {p : Addr} (h : claimed s.cfg p = true)
    (h' : claimed s.cfg (joinBytes (highByte p) (lowByte p + 1)) = false) :
    exec (.jmpInd p) s =
      .next (latchFault s (.unmappedMemoryAccess (joinBytes (highByte p) (lowByte p + 1)) .read) (afterRead s p)) := by
  refine (runInstr_error (f := .unmappedMemoryAccess (joinBytes (highByte p) (lowByte p + 1)) .read)
    (t := { afterRead s p with pc := s.pc + 3 }) ?_).trans rfl
  rw [advance_bind, bind_ok (memRead_ok (by exact h)), bind_error (memRead_error (by exact h'))]
  rfl

theorem jsr_next (s : State) (target : Addr) :
    exec (.jsr target) s = .next { afterPush16 s (s.pc + 2) with pc := target } := by
  have ret : s.pc + BitVec.ofNat 16 3 - 1 = s.pc + 2 := by bv_omega
  refine runInstr_ok ?_
  rw [advance_bind, get_bind, bind_ok (push16_run _ _), setPc_run]
  simp only [ret]
  rfl

theorem rts_next (s : State) : exec .rts s = .next { afterPull16 s with pc := pullWord s + 1 } := by
  refine runInstr_ok ?_
  rw [advance_bind, bind_ok (pull16_run _), setPc_run]
  rfl

theorem rti_next (s : State) : exec .rti s = .next (afterReturn s) := by
  refine runInstr_ok ?_
  rw [advance_bind, returnFromHandler_run]
  rfl

theorem claimed16_irqVector (c : Config) : claimed16 c irqVector = claimed c irqVector :=
  claimed16_of_vector c irqVector (by decide) (by decide)

theorem claimed16_nmiVector (c : Config) : claimed16 c nmiVector = claimed c nmiVector :=
  claimed16_of_vector c nmiVector (by decide) (by decide)

theorem claimed16_resetVector (c : Config) : claimed16 c resetVector = claimed c resetVector :=
  claimed16_of_vector c resetVector (by decide) (by decide)

theorem brk_ok {s : State} (h : claimed s.cfg irqVector = true) :
    exec .brk s = .next (afterEntry s (s.pc + 2) true irqVector) :=
  runInstr_ok (enterHandler_ok _ _ ((claimed16_irqVector _).trans h))

theorem brk_error {s : State} (h : claimed s.cfg irqVector = false) :
    exec .brk s =
      .next (latchFault s (.unmappedMemoryAccess irqVector .read) (afterEntryPushes s (s.pc + 2) true)) :=
  (runInstr_error (enterHandler_error _ _ h)).trans rfl

/-- The displacement of a branch as R8 writes the sign extension. -/
theorem sext16_eq (d : Byte) : sext16 d = if d.getLsbD 7 then d.setWidth 16 + 0xFF00 else d.setWidth 16 := by
  have h : ∀ n : Fin 256, sext16 (BitVec.ofFin n) =
      if (BitVec.ofFin n : Byte).getLsbD 7 then (BitVec.ofFin n : Byte).setWidth 16 + 0xFF00
      else (BitVec.ofFin n : Byte).setWidth 16 := by
    decide +kernel
  exact h d.toFin

/-! ### Stack instructions -/

theorem pha_next (s : State) : exec .pha s = .next { afterPush s s.a with pc := s.pc + 1 } := by
  refine runInstr_ok ?_
  rw [advance_bind, get_bind, push_run]
  rfl

theorem php_next (s : State) : exec .php s = .next { afterPush s (statusByte s.p true) with pc := s.pc + 1 } := by
  refine runInstr_ok ?_
  rw [advance_bind, get_bind, push_run]
  rfl

theorem pla_next (s : State) :
    exec .pla s = .next { afterPull s with a := pullByte s, p := setZN (pullByte s) s.p, pc := s.pc + 1 } := by
  refine runInstr_ok ?_
  rw [advance_bind, bind_ok (pull_run _), modify_run]
  rfl

theorem plp_next (s : State) :
    exec .plp s = .next { afterPull s with p := statusOfByte (pullByte s), pc := s.pc + 1 } := by
  refine runInstr_ok ?_
  rw [advance_bind, bind_ok (pull_run _), modify_run]
  rfl

end Sys2Proof.Machine
end

