-- ==== Sys2Proof/Laws/Exec.lean ====
section
/-! SUPPORT. Said once for all 151 instructions: the shapes a next state of `exec` can have. An invariant over every
instruction is a case analysis of `exec_cases`. -/

namespace Sys2Proof.Machine

theorem operandClaimed_eq_false {m : Mode} {s : State} (h : operandClaimed m s = false) :
    ∃ addr, modeLoc m s = .mem addr ∧ claimed s.cfg addr = false :=
  locClaimed_eq_false h

/-- The state an instruction with a mode leaves when its location is unclaimed (R306). -/
def unclaimedOperand (s : State) (m : Mode) (addr : Addr) (dir : Dir) : State :=
  { s with fault := some (.unmappedMemoryAccess addr dir), bus := s.bus ++ modeReads m s }

/-- An instruction that reads its operand and then only changes the state, as `exec` runs it. -/
theorem operandThen_cases {m : Mode} {s t : State} {body : Bus Unit} {g : Byte → State → State}
    (he : runInstr body s = .next t) (hb : body = readOperand m >>= fun v => modify (g v)) :
    (operandClaimed m s = true ∧
      t = g (operandByte m s) { afterOperand m s with pc := s.pc + BitVec.ofNat 16 (modeLength m) }) ∨
    (∃ addr, modeLoc m s = .mem addr ∧ claimed s.cfg addr = false ∧ t = unclaimedOperand s m addr .read) := by
  subst hb
  cases h : operandClaimed m s
  · obtain ⟨addr, h1, h2⟩ := operandClaimed_eq_false h
    cases (runInstr_error (operandThen_error g h1 h2)).symm.trans he
    exact .inr ⟨addr, h1, h2, rfl⟩
  · cases (runInstr_ok (operandThen_ok g h)).symm.trans he
    exact .inl ⟨rfl, rfl⟩

theorem store_cases {m : Mode} {s t : State} {r : State → Byte} (he : runInstr (store m r) s = .next t)
    (hr : ∀ bus pc, r { s with bus := bus, pc := pc } = r s) :
    (operandClaimed m s = true ∧ t = { afterStore m (r s) s with pc := s.pc + BitVec.ofNat 16 (modeLength m) }) ∨
    (∃ addr, modeLoc m s = .mem addr ∧ claimed s.cfg addr = false ∧ t = unclaimedOperand s m addr .write) := by
  cases h : operandClaimed m s
  · obtain ⟨addr, h1, h2⟩ := operandClaimed_eq_false h
    cases (runInstr_error (store_error r h1 h2)).symm.trans he
    exact .inr ⟨addr, h1, h2, rfl⟩
  · cases (runInstr_ok (store_ok r h hr)).symm.trans he
    exact .inl ⟨rfl, rfl⟩

theorem readModifyWrite_cases {m : Mode} {s t : State} {result : Byte → Bool → Byte} {carry : Byte → Bool → Bool}
    (he : runInstr (readModifyWrite m result carry) s = .next t) :
    (operandClaimed m s = true ∧
      t = { afterModify m (result (operandByte m s) s.p.c) s with
        p := setZN (result (operandByte m s) s.p.c) { s.p with c := carry (operandByte m s) s.p.c }
        pc := s.pc + BitVec.ofNat 16 (modeLength m) }) ∨
    (∃ addr, modeLoc m s = .mem addr ∧ claimed s.cfg addr = false ∧ t = unclaimedOperand s m addr .read) := by
  cases h : operandClaimed m s
  · obtain ⟨addr, h1, h2⟩ := operandClaimed_eq_false h
    cases (runInstr_error (readModifyWrite_error result carry h1 h2)).symm.trans he
    exact .inr ⟨addr, h1, h2, rfl⟩
  · cases (runInstr_ok (readModifyWrite_ok result carry h)).symm.trans he
    exact .inl ⟨rfl, rfl⟩

/-- The shapes of the next state of an instruction, by what it does on the bus. -/
inductive Effect (i : Instr) (s t : State) : Prop
  | reads (m : Mode) (a x y : Byte) (p : Status) (pc : Addr) (claim : operandClaimed m s = true)
      (eq : t = { afterOperand m s with a := a, x := x, y := y, p := p, pc := pc })
  | stores (m : Mode) (v : Byte) (pc : Addr) (claim : operandClaimed m s = true)
      (eq : t = { afterStore m v s with pc := pc })
  | modifies (m : Mode) (v : Byte) (p : Status) (pc : Addr) (claim : operandClaimed m s = true)
      (eq : t = { afterModify m v s with p := p, pc := pc })
  | unclaimed (m : Mode) (addr : Addr) (dir : Dir) (claim : claimed s.cfg addr = false)
      (eq : t = unclaimedOperand s m addr dir)
  | registers (a x y sp : Byte) (p : Status) (pc : Addr)
      (eq : t = { s with a := a, x := x, y := y, sp := sp, p := p, pc := pc })
  | pushes (v : Byte) (pc : Addr) (eq : t = { afterPush s v with pc := pc })
  | calls (w pc : Addr) (eq : t = { afterPush16 s w with pc := pc })
  | pulls (a : Byte) (p : Status) (pc : Addr) (eq : t = { afterPull s with a := a, p := p, pc := pc })
  | returns (pc : Addr) (eq : t = { afterPull16 s with pc := pc })
  | returnsFromHandler (eq : t = afterReturn s)
  | breaks (brk : i = .brk) (claim : claimed s.cfg irqVector = true)
      (eq : t = afterEntry s (s.pc + 2) true irqVector)
  | breakUnclaimed (brk : i = .brk) (claim : claimed s.cfg irqVector = false)
      (eq : t = latchFault s (.unmappedMemoryAccess irqVector .read) (afterEntryPushes s (s.pc + 2) true))
  | jumps (p q pc : Addr) (eq : t = { afterRead (afterRead s p) q with pc := pc })
  | jumpUnclaimed (p q : Addr) (claim : claimed s.cfg q = false)
      (eq : t = latchFault s (.unmappedMemoryAccess q .read) (afterRead s p))

theorem effect_of_operandThen {i : Instr} {m : Mode} {s t : State} {body : Bus Unit} {g : Byte → State → State}
    (he : runInstr body s = .next t) (hb : body = readOperand m >>= fun v => modify (g v))
    (hg : ∀ v u, ∃ a x y p, g v u = { u with a := a, x := x, y := y, p := p }) : Effect i s t := by
  rcases operandThen_cases he hb with ⟨h, rfl⟩ | ⟨addr, _, h, rfl⟩
  · obtain ⟨a, x, y, p, e⟩ := hg (operandByte m s) { afterOperand m s with pc := s.pc + BitVec.ofNat 16 (modeLength m) }
    exact .reads m a x y p _ h e
  · exact .unclaimed m addr _ h rfl

theorem effect_of_store {i : Instr} {m : Mode} {s t : State} {r : State → Byte} (he : runInstr (store m r) s = .next t)
    (hr : ∀ bus pc, r { s with bus := bus, pc := pc } = r s) : Effect i s t := by
  rcases store_cases he hr with ⟨h, rfl⟩ | ⟨addr, _, h, rfl⟩
  · exact .stores m _ _ h rfl
  · exact .unclaimed m addr _ h rfl

theorem effect_of_readModifyWrite {i : Instr} {m : Mode} {s t : State} {result : Byte → Bool → Byte}
    {carry : Byte → Bool → Bool} (he : runInstr (readModifyWrite m result carry) s = .next t) : Effect i s t := by
  rcases readModifyWrite_cases he with ⟨h, rfl⟩ | ⟨addr, _, h, rfl⟩
  · exact .modifies m _ _ _ h rfl
  · exact .unclaimed m addr _ h rfl

theorem effect_of_branch {i : Instr} {s t : State} {taken : Status → Bool} {disp : Byte}
    (he : runInstr (branch taken disp) s = .next t) : Effect i s t := by
  cases h : taken s.p <;> simp [runInstr, branch, h] at he <;> subst he <;> exact .registers _ _ _ _ _ _ rfl

/-- Everything an instruction can do. -/
theorem exec_cases {i : Instr} {s t : State} (he : exec i s = .next t) : Effect i s t := by
  cases i
  case brk =>
    cases h : claimed s.cfg irqVector
    · cases (brk_error h).symm.trans he
      exact .breakUnclaimed rfl h rfl
    · cases (brk_ok h).symm.trans he
      exact .breaks rfl h rfl
  case jmpInd p =>
    cases h : claimed s.cfg p
    · cases (jmpInd_error_low h).symm.trans he
      exact .unclaimed (.immediate 0) p .read h (by simp [unclaimedOperand, latchFault, modeReads])
    · cases h' : claimed s.cfg (joinBytes (highByte p) (lowByte p + 1))
      · cases (jmpInd_error_high h h').symm.trans he
        exact .jumpUnclaimed p _ h' rfl
      · cases (jmpInd_ok h h').symm.trans he
        exact .jumps p _ _ rfl
  case jsr w => cases (jsr_next s w).symm.trans he; exact .calls _ _ rfl
  case rts => cases (rts_next s).symm.trans he; exact .returns _ rfl
  case rti => cases (rti_next s).symm.trans he; exact .returnsFromHandler rfl
  case pha => cases (pha_next s).symm.trans he; exact .pushes _ _ rfl
  case php => cases (php_next s).symm.trans he; exact .pushes _ _ rfl
  case pla => cases (pla_next s).symm.trans he; exact .pulls _ _ _ rfl
  case plp => cases (plp_next s).symm.trans he; exact .pulls s.a _ _ rfl
  case bpl | bmi | bvc | bvs | bcc | bcs | bne | beq => exact effect_of_branch he
  case aslZp | aslAbs | aslZpX | aslAbsX | rolZp | rolAbs | rolZpX | rolAbsX | lsrZp | lsrAbs | lsrZpX
      | lsrAbsX | rorZp | rorAbs | rorZpX | rorAbsX | decZp | decAbs | decZpX | decAbsX | incZp | incAbs
      | incZpX | incAbsX =>
    exact effect_of_readModifyWrite he
  case staIndX | staZp | staAbs | staIndY | staZpX | staAbsY | staAbsX =>
    exact effect_of_store (r := State.a) he fun _ _ => rfl
  case stxZp | stxAbs | stxZpY =>
    exact effect_of_store (r := State.x) he fun _ _ => rfl
  case styZp | styAbs | styZpX =>
    exact effect_of_store (r := State.y) he fun _ _ => rfl
  case oraIndX | oraZp | oraAbs | oraIndY | oraZpX | oraAbsY | oraAbsX | andIndX | andZp | andAbs | andIndY
      | andZpX | andAbsY | andAbsX | bitZp | bitAbs | eorIndX | eorZp | eorAbs | eorIndY | eorZpX | eorAbsY
      | eorAbsX | adcIndX | adcZp | adcAbs | adcIndY | adcZpX | adcAbsY | adcAbsX | ldyZp | ldyAbs | ldyZpX
      | ldyAbsX | ldaIndX | ldaZp | ldaAbs | ldaIndY | ldaZpX | ldaAbsY | ldaAbsX | ldxZp | ldxAbs | ldxZpY
      | ldxAbsY | cpyZp | cpyAbs | cmpIndX | cmpZp | cmpAbs | cmpIndY | cmpZpX | cmpAbsY | cmpAbsX | cpxZp
      | cpxAbs | sbcIndX | sbcZp | sbcAbs | sbcIndY | sbcZpX | sbcAbsY | sbcAbsX =>
    exact effect_of_operandThen he rfl fun v u => ⟨_, _, _, _, rfl⟩
  case oraImm | aslAcc | clc | andImm | rolAcc | sec | eorImm | lsrAcc | jmpAbs | cli | adcImm | rorAcc
      | sei | dey | txa | tya | txs | ldyImm | ldaImm | ldxImm | tay | tax | clv | tsx | cpyImm | cmpImm
      | iny | dex | cld | cpxImm | sbcImm | inx | nop | sed =>
    cases he; exact .registers _ _ _ _ _ _ rfl

end Sys2Proof.Machine
end

