-- ==== Sys2Proof/Laws/PerInstr.lean ====
section
/-! SUPPORT. Laws of the instructions as syntax, one lemma per constructor: `Admitted`, an instruction's mnemonic admits its
form (spec/40_addressing.md R119); `TableRow`, an instruction's encoding begins with the opcode of its own row of the table
and has the bytes the row's form asks for (spec/30_encoding.md R70, R80). -/

namespace Sys2Proof.Laws.Admitted

/-- The instruction's mnemonic admits its form (R119). -/
def Statement (i : Instr) : Prop := i.wellFormed = true

theorem brk : Statement .brk := rfl
theorem oraIndX (zp8 : Byte) : Statement (.oraIndX zp8) := rfl
theorem oraZp (zp8 : Byte) : Statement (.oraZp zp8) := rfl
theorem oraImm (imm8 : Byte) : Statement (.oraImm imm8) := rfl
theorem oraAbs (abs16 : Addr) : Statement (.oraAbs abs16) := rfl
theorem oraIndY (zp8 : Byte) : Statement (.oraIndY zp8) := rfl
theorem oraZpX (zp8 : Byte) : Statement (.oraZpX zp8) := rfl
theorem oraAbsY (abs16 : Addr) : Statement (.oraAbsY abs16) := rfl
theorem oraAbsX (abs16 : Addr) : Statement (.oraAbsX abs16) := rfl
theorem aslZp (zp8 : Byte) : Statement (.aslZp zp8) := rfl
theorem aslAcc : Statement .aslAcc := rfl
theorem aslAbs (abs16 : Addr) : Statement (.aslAbs abs16) := rfl
theorem aslZpX (zp8 : Byte) : Statement (.aslZpX zp8) := rfl
theorem aslAbsX (abs16 : Addr) : Statement (.aslAbsX abs16) := rfl
theorem php : Statement .php := rfl
theorem bpl (disp8 : Byte) : Statement (.bpl disp8) := rfl
theorem clc : Statement .clc := rfl
theorem jsr (abs16 : Addr) : Statement (.jsr abs16) := rfl
theorem andIndX (zp8 : Byte) : Statement (.andIndX zp8) := rfl
theorem andZp (zp8 : Byte) : Statement (.andZp zp8) := rfl
theorem andImm (imm8 : Byte) : Statement (.andImm imm8) := rfl
theorem andAbs (abs16 : Addr) : Statement (.andAbs abs16) := rfl
theorem andIndY (zp8 : Byte) : Statement (.andIndY zp8) := rfl
theorem andZpX (zp8 : Byte) : Statement (.andZpX zp8) := rfl
theorem andAbsY (abs16 : Addr) : Statement (.andAbsY abs16) := rfl
theorem andAbsX (abs16 : Addr) : Statement (.andAbsX abs16) := rfl
theorem bitZp (zp8 : Byte) : Statement (.bitZp zp8) := rfl
theorem bitAbs (abs16 : Addr) : Statement (.bitAbs abs16) := rfl
theorem rolZp (zp8 : Byte) : Statement (.rolZp zp8) := rfl
theorem rolAcc : Statement .rolAcc := rfl
theorem rolAbs (abs16 : Addr) : Statement (.rolAbs abs16) := rfl
theorem rolZpX (zp8 : Byte) : Statement (.rolZpX zp8) := rfl
theorem rolAbsX (abs16 : Addr) : Statement (.rolAbsX abs16) := rfl
theorem plp : Statement .plp := rfl
theorem bmi (disp8 : Byte) : Statement (.bmi disp8) := rfl
theorem sec : Statement .sec := rfl
theorem rti : Statement .rti := rfl
theorem eorIndX (zp8 : Byte) : Statement (.eorIndX zp8) := rfl
theorem eorZp (zp8 : Byte) : Statement (.eorZp zp8) := rfl
theorem eorImm (imm8 : Byte) : Statement (.eorImm imm8) := rfl
theorem eorAbs (abs16 : Addr) : Statement (.eorAbs abs16) := rfl
theorem eorIndY (zp8 : Byte) : Statement (.eorIndY zp8) := rfl
theorem eorZpX (zp8 : Byte) : Statement (.eorZpX zp8) := rfl
theorem eorAbsY (abs16 : Addr) : Statement (.eorAbsY abs16) := rfl
theorem eorAbsX (abs16 : Addr) : Statement (.eorAbsX abs16) := rfl
theorem lsrZp (zp8 : Byte) : Statement (.lsrZp zp8) := rfl
theorem lsrAcc : Statement .lsrAcc := rfl
theorem lsrAbs (abs16 : Addr) : Statement (.lsrAbs abs16) := rfl
theorem lsrZpX (zp8 : Byte) : Statement (.lsrZpX zp8) := rfl
theorem lsrAbsX (abs16 : Addr) : Statement (.lsrAbsX abs16) := rfl
theorem pha : Statement .pha := rfl
theorem jmpAbs (abs16 : Addr) : Statement (.jmpAbs abs16) := rfl
theorem jmpInd (ptr16 : Addr) : Statement (.jmpInd ptr16) := rfl
theorem bvc (disp8 : Byte) : Statement (.bvc disp8) := rfl
theorem cli : Statement .cli := rfl
theorem rts : Statement .rts := rfl
theorem adcIndX (zp8 : Byte) : Statement (.adcIndX zp8) := rfl
theorem adcZp (zp8 : Byte) : Statement (.adcZp zp8) := rfl
theorem adcImm (imm8 : Byte) : Statement (.adcImm imm8) := rfl
theorem adcAbs (abs16 : Addr) : Statement (.adcAbs abs16) := rfl
theorem adcIndY (zp8 : Byte) : Statement (.adcIndY zp8) := rfl
theorem adcZpX (zp8 : Byte) : Statement (.adcZpX zp8) := rfl
theorem adcAbsY (abs16 : Addr) : Statement (.adcAbsY abs16) := rfl
theorem adcAbsX (abs16 : Addr) : Statement (.adcAbsX abs16) := rfl
theorem rorZp (zp8 : Byte) : Statement (.rorZp zp8) := rfl
theorem rorAcc : Statement .rorAcc := rfl
theorem rorAbs (abs16 : Addr) : Statement (.rorAbs abs16) := rfl
theorem rorZpX (zp8 : Byte) : Statement (.rorZpX zp8) := rfl
theorem rorAbsX (abs16 : Addr) : Statement (.rorAbsX abs16) := rfl
theorem pla : Statement .pla := rfl
theorem bvs (disp8 : Byte) : Statement (.bvs disp8) := rfl
theorem sei : Statement .sei := rfl
theorem staIndX (zp8 : Byte) : Statement (.staIndX zp8) := rfl
theorem staZp (zp8 : Byte) : Statement (.staZp zp8) := rfl
theorem staAbs (abs16 : Addr) : Statement (.staAbs abs16) := rfl
theorem staIndY (zp8 : Byte) : Statement (.staIndY zp8) := rfl
theorem staZpX (zp8 : Byte) : Statement (.staZpX zp8) := rfl
theorem staAbsY (abs16 : Addr) : Statement (.staAbsY abs16) := rfl
theorem staAbsX (abs16 : Addr) : Statement (.staAbsX abs16) := rfl
theorem styZp (zp8 : Byte) : Statement (.styZp zp8) := rfl
theorem styAbs (abs16 : Addr) : Statement (.styAbs abs16) := rfl
theorem styZpX (zp8 : Byte) : Statement (.styZpX zp8) := rfl
theorem stxZp (zp8 : Byte) : Statement (.stxZp zp8) := rfl
theorem stxAbs (abs16 : Addr) : Statement (.stxAbs abs16) := rfl
theorem stxZpY (zp8 : Byte) : Statement (.stxZpY zp8) := rfl
theorem dey : Statement .dey := rfl
theorem txa : Statement .txa := rfl
theorem bcc (disp8 : Byte) : Statement (.bcc disp8) := rfl
theorem tya : Statement .tya := rfl
theorem txs : Statement .txs := rfl
theorem ldyImm (imm8 : Byte) : Statement (.ldyImm imm8) := rfl
theorem ldyZp (zp8 : Byte) : Statement (.ldyZp zp8) := rfl
theorem ldyAbs (abs16 : Addr) : Statement (.ldyAbs abs16) := rfl
theorem ldyZpX (zp8 : Byte) : Statement (.ldyZpX zp8) := rfl
theorem ldyAbsX (abs16 : Addr) : Statement (.ldyAbsX abs16) := rfl
theorem ldaIndX (zp8 : Byte) : Statement (.ldaIndX zp8) := rfl
theorem ldaZp (zp8 : Byte) : Statement (.ldaZp zp8) := rfl
theorem ldaImm (imm8 : Byte) : Statement (.ldaImm imm8) := rfl
theorem ldaAbs (abs16 : Addr) : Statement (.ldaAbs abs16) := rfl
theorem ldaIndY (zp8 : Byte) : Statement (.ldaIndY zp8) := rfl
theorem ldaZpX (zp8 : Byte) : Statement (.ldaZpX zp8) := rfl
theorem ldaAbsY (abs16 : Addr) : Statement (.ldaAbsY abs16) := rfl
theorem ldaAbsX (abs16 : Addr) : Statement (.ldaAbsX abs16) := rfl
theorem ldxImm (imm8 : Byte) : Statement (.ldxImm imm8) := rfl
theorem ldxZp (zp8 : Byte) : Statement (.ldxZp zp8) := rfl
theorem ldxAbs (abs16 : Addr) : Statement (.ldxAbs abs16) := rfl
theorem ldxZpY (zp8 : Byte) : Statement (.ldxZpY zp8) := rfl
theorem ldxAbsY (abs16 : Addr) : Statement (.ldxAbsY abs16) := rfl
theorem tay : Statement .tay := rfl
theorem tax : Statement .tax := rfl
theorem bcs (disp8 : Byte) : Statement (.bcs disp8) := rfl
theorem clv : Statement .clv := rfl
theorem tsx : Statement .tsx := rfl
theorem cpyImm (imm8 : Byte) : Statement (.cpyImm imm8) := rfl
theorem cpyZp (zp8 : Byte) : Statement (.cpyZp zp8) := rfl
theorem cpyAbs (abs16 : Addr) : Statement (.cpyAbs abs16) := rfl
theorem cmpIndX (zp8 : Byte) : Statement (.cmpIndX zp8) := rfl
theorem cmpZp (zp8 : Byte) : Statement (.cmpZp zp8) := rfl
theorem cmpImm (imm8 : Byte) : Statement (.cmpImm imm8) := rfl
theorem cmpAbs (abs16 : Addr) : Statement (.cmpAbs abs16) := rfl
theorem cmpIndY (zp8 : Byte) : Statement (.cmpIndY zp8) := rfl
theorem cmpZpX (zp8 : Byte) : Statement (.cmpZpX zp8) := rfl
theorem cmpAbsY (abs16 : Addr) : Statement (.cmpAbsY abs16) := rfl
theorem cmpAbsX (abs16 : Addr) : Statement (.cmpAbsX abs16) := rfl
theorem decZp (zp8 : Byte) : Statement (.decZp zp8) := rfl
theorem decAbs (abs16 : Addr) : Statement (.decAbs abs16) := rfl
theorem decZpX (zp8 : Byte) : Statement (.decZpX zp8) := rfl
theorem decAbsX (abs16 : Addr) : Statement (.decAbsX abs16) := rfl
theorem iny : Statement .iny := rfl
theorem dex : Statement .dex := rfl
theorem bne (disp8 : Byte) : Statement (.bne disp8) := rfl
theorem cld : Statement .cld := rfl
theorem cpxImm (imm8 : Byte) : Statement (.cpxImm imm8) := rfl
theorem cpxZp (zp8 : Byte) : Statement (.cpxZp zp8) := rfl
theorem cpxAbs (abs16 : Addr) : Statement (.cpxAbs abs16) := rfl
theorem sbcIndX (zp8 : Byte) : Statement (.sbcIndX zp8) := rfl
theorem sbcZp (zp8 : Byte) : Statement (.sbcZp zp8) := rfl
theorem sbcImm (imm8 : Byte) : Statement (.sbcImm imm8) := rfl
theorem sbcAbs (abs16 : Addr) : Statement (.sbcAbs abs16) := rfl
theorem sbcIndY (zp8 : Byte) : Statement (.sbcIndY zp8) := rfl
theorem sbcZpX (zp8 : Byte) : Statement (.sbcZpX zp8) := rfl
theorem sbcAbsY (abs16 : Addr) : Statement (.sbcAbsY abs16) := rfl
theorem sbcAbsX (abs16 : Addr) : Statement (.sbcAbsX abs16) := rfl
theorem incZp (zp8 : Byte) : Statement (.incZp zp8) := rfl
theorem incAbs (abs16 : Addr) : Statement (.incAbs abs16) := rfl
theorem incZpX (zp8 : Byte) : Statement (.incZpX zp8) := rfl
theorem incAbsX (abs16 : Addr) : Statement (.incAbsX abs16) := rfl
theorem inx : Statement .inx := rfl
theorem nop : Statement .nop := rfl
theorem beq (disp8 : Byte) : Statement (.beq disp8) := rfl
theorem sed : Statement .sed := rfl

end Sys2Proof.Laws.Admitted

namespace Sys2Proof.Laws.TableRow

/-- The encoding begins with the opcode of the instruction's own table row, which asks for as many operand bytes as follow,
and is as long as the form says (R70, R80). -/
def Statement (i : Instr) : Prop :=
  ∃ op operand, encode i = op :: operand ∧ opcodeRow op = some (i.mnemonic, i.form) ∧
    operandCount op = some operand.length ∧ (encode i).length = instrLength i

theorem brk : Statement .brk := ⟨_, _, rfl, rfl, rfl, rfl⟩
theorem oraIndX (zp8 : Byte) : Statement (.oraIndX zp8) := ⟨_, _, rfl, rfl, rfl, rfl⟩
theorem oraZp (zp8 : Byte) : Statement (.oraZp zp8) := ⟨_, _, rfl, rfl, rfl, rfl⟩
theorem oraImm (imm8 : Byte) : Statement (.oraImm imm8) := ⟨_, _, rfl, rfl, rfl, rfl⟩
theorem oraAbs (abs16 : Addr) : Statement (.oraAbs abs16) := ⟨_, _, rfl, rfl, rfl, rfl⟩
theorem oraIndY (zp8 : Byte) : Statement (.oraIndY zp8) := ⟨_, _, rfl, rfl, rfl, rfl⟩
theorem oraZpX (zp8 : Byte) : Statement (.oraZpX zp8) := ⟨_, _, rfl, rfl, rfl, rfl⟩
theorem oraAbsY (abs16 : Addr) : Statement (.oraAbsY abs16) := ⟨_, _, rfl, rfl, rfl, rfl⟩
theorem oraAbsX (abs16 : Addr) : Statement (.oraAbsX abs16) := ⟨_, _, rfl, rfl, rfl, rfl⟩
theorem aslZp (zp8 : Byte) : Statement (.aslZp zp8) := ⟨_, _, rfl, rfl, rfl, rfl⟩
theorem aslAcc : Statement .aslAcc := ⟨_, _, rfl, rfl, rfl, rfl⟩
theorem aslAbs (abs16 : Addr) : Statement (.aslAbs abs16) := ⟨_, _, rfl, rfl, rfl, rfl⟩
theorem aslZpX (zp8 : Byte) : Statement (.aslZpX zp8) := ⟨_, _, rfl, rfl, rfl, rfl⟩
theorem aslAbsX (abs16 : Addr) : Statement (.aslAbsX abs16) := ⟨_, _, rfl, rfl, rfl, rfl⟩
theorem php : Statement .php := ⟨_, _, rfl, rfl, rfl, rfl⟩
theorem bpl (disp8 : Byte) : Statement (.bpl disp8) := ⟨_, _, rfl, rfl, rfl, rfl⟩
theorem clc : Statement .clc := ⟨_, _, rfl, rfl, rfl, rfl⟩
theorem jsr (abs16 : Addr) : Statement (.jsr abs16) := ⟨_, _, rfl, rfl, rfl, rfl⟩
theorem andIndX (zp8 : Byte) : Statement (.andIndX zp8) := ⟨_, _, rfl, rfl, rfl, rfl⟩
theorem andZp (zp8 : Byte) : Statement (.andZp zp8) := ⟨_, _, rfl, rfl, rfl, rfl⟩
theorem andImm (imm8 : Byte) : Statement (.andImm imm8) := ⟨_, _, rfl, rfl, rfl, rfl⟩
theorem andAbs (abs16 : Addr) : Statement (.andAbs abs16) := ⟨_, _, rfl, rfl, rfl, rfl⟩
theorem andIndY (zp8 : Byte) : Statement (.andIndY zp8) := ⟨_, _, rfl, rfl, rfl, rfl⟩
theorem andZpX (zp8 : Byte) : Statement (.andZpX zp8) := ⟨_, _, rfl, rfl, rfl, rfl⟩
theorem andAbsY (abs16 : Addr) : Statement (.andAbsY abs16) := ⟨_, _, rfl, rfl, rfl, rfl⟩
theorem andAbsX (abs16 : Addr) : Statement (.andAbsX abs16) := ⟨_, _, rfl, rfl, rfl, rfl⟩
theorem bitZp (zp8 : Byte) : Statement (.bitZp zp8) := ⟨_, _, rfl, rfl, rfl, rfl⟩
theorem bitAbs (abs16 : Addr) : Statement (.bitAbs abs16) := ⟨_, _, rfl, rfl, rfl, rfl⟩
theorem rolZp (zp8 : Byte) : Statement (.rolZp zp8) := ⟨_, _, rfl, rfl, rfl, rfl⟩
theorem rolAcc : Statement .rolAcc := ⟨_, _, rfl, rfl, rfl, rfl⟩
theorem rolAbs (abs16 : Addr) : Statement (.rolAbs abs16) := ⟨_, _, rfl, rfl, rfl, rfl⟩
theorem rolZpX (zp8 : Byte) : Statement (.rolZpX zp8) := ⟨_, _, rfl, rfl, rfl, rfl⟩
theorem rolAbsX (abs16 : Addr) : Statement (.rolAbsX abs16) := ⟨_, _, rfl, rfl, rfl, rfl⟩
theorem plp : Statement .plp := ⟨_, _, rfl, rfl, rfl, rfl⟩
theorem bmi (disp8 : Byte) : Statement (.bmi disp8) := ⟨_, _, rfl, rfl, rfl, rfl⟩
theorem sec : Statement .sec := ⟨_, _, rfl, rfl, rfl, rfl⟩
theorem rti : Statement .rti := ⟨_, _, rfl, rfl, rfl, rfl⟩
theorem eorIndX (zp8 : Byte) : Statement (.eorIndX zp8) := ⟨_, _, rfl, rfl, rfl, rfl⟩
theorem eorZp (zp8 : Byte) : Statement (.eorZp zp8) := ⟨_, _, rfl, rfl, rfl, rfl⟩
theorem eorImm (imm8 : Byte) : Statement (.eorImm imm8) := ⟨_, _, rfl, rfl, rfl, rfl⟩
theorem eorAbs (abs16 : Addr) : Statement (.eorAbs abs16) := ⟨_, _, rfl, rfl, rfl, rfl⟩
theorem eorIndY (zp8 : Byte) : Statement (.eorIndY zp8) := ⟨_, _, rfl, rfl, rfl, rfl⟩
theorem eorZpX (zp8 : Byte) : Statement (.eorZpX zp8) := ⟨_, _, rfl, rfl, rfl, rfl⟩
theorem eorAbsY (abs16 : Addr) : Statement (.eorAbsY abs16) := ⟨_, _, rfl, rfl, rfl, rfl⟩
theorem eorAbsX (abs16 : Addr) : Statement (.eorAbsX abs16) := ⟨_, _, rfl, rfl, rfl, rfl⟩
theorem lsrZp (zp8 : Byte) : Statement (.lsrZp zp8) := ⟨_, _, rfl, rfl, rfl, rfl⟩
theorem lsrAcc : Statement .lsrAcc := ⟨_, _, rfl, rfl, rfl, rfl⟩
theorem lsrAbs (abs16 : Addr) : Statement (.lsrAbs abs16) := ⟨_, _, rfl, rfl, rfl, rfl⟩
theorem lsrZpX (zp8 : Byte) : Statement (.lsrZpX zp8) := ⟨_, _, rfl, rfl, rfl, rfl⟩
theorem lsrAbsX (abs16 : Addr) : Statement (.lsrAbsX abs16) := ⟨_, _, rfl, rfl, rfl, rfl⟩
theorem pha : Statement .pha := ⟨_, _, rfl, rfl, rfl, rfl⟩
theorem jmpAbs (abs16 : Addr) : Statement (.jmpAbs abs16) := ⟨_, _, rfl, rfl, rfl, rfl⟩
theorem jmpInd (ptr16 : Addr) : Statement (.jmpInd ptr16) := ⟨_, _, rfl, rfl, rfl, rfl⟩
theorem bvc (disp8 : Byte) : Statement (.bvc disp8) := ⟨_, _, rfl, rfl, rfl, rfl⟩
theorem cli : Statement .cli := ⟨_, _, rfl, rfl, rfl, rfl⟩
theorem rts : Statement .rts := ⟨_, _, rfl, rfl, rfl, rfl⟩
theorem adcIndX (zp8 : Byte) : Statement (.adcIndX zp8) := ⟨_, _, rfl, rfl, rfl, rfl⟩
theorem adcZp (zp8 : Byte) : Statement (.adcZp zp8) := ⟨_, _, rfl, rfl, rfl, rfl⟩
theorem adcImm (imm8 : Byte) : Statement (.adcImm imm8) := ⟨_, _, rfl, rfl, rfl, rfl⟩
theorem adcAbs (abs16 : Addr) : Statement (.adcAbs abs16) := ⟨_, _, rfl, rfl, rfl, rfl⟩
theorem adcIndY (zp8 : Byte) : Statement (.adcIndY zp8) := ⟨_, _, rfl, rfl, rfl, rfl⟩
theorem adcZpX (zp8 : Byte) : Statement (.adcZpX zp8) := ⟨_, _, rfl, rfl, rfl, rfl⟩
theorem adcAbsY (abs16 : Addr) : Statement (.adcAbsY abs16) := ⟨_, _, rfl, rfl, rfl, rfl⟩
theorem adcAbsX (abs16 : Addr) : Statement (.adcAbsX abs16) := ⟨_, _, rfl, rfl, rfl, rfl⟩
theorem rorZp (zp8 : Byte) : Statement (.rorZp zp8) := ⟨_, _, rfl, rfl, rfl, rfl⟩
theorem rorAcc : Statement .rorAcc := ⟨_, _, rfl, rfl, rfl, rfl⟩
theorem rorAbs (abs16 : Addr) : Statement (.rorAbs abs16) := ⟨_, _, rfl, rfl, rfl, rfl⟩
theorem rorZpX (zp8 : Byte) : Statement (.rorZpX zp8) := ⟨_, _, rfl, rfl, rfl, rfl⟩
theorem rorAbsX (abs16 : Addr) : Statement (.rorAbsX abs16) := ⟨_, _, rfl, rfl, rfl, rfl⟩
theorem pla : Statement .pla := ⟨_, _, rfl, rfl, rfl, rfl⟩
theorem bvs (disp8 : Byte) : Statement (.bvs disp8) := ⟨_, _, rfl, rfl, rfl, rfl⟩
theorem sei : Statement .sei := ⟨_, _, rfl, rfl, rfl, rfl⟩
theorem staIndX (zp8 : Byte) : Statement (.staIndX zp8) := ⟨_, _, rfl, rfl, rfl, rfl⟩
theorem staZp (zp8 : Byte) : Statement (.staZp zp8) := ⟨_, _, rfl, rfl, rfl, rfl⟩
theorem staAbs (abs16 : Addr) : Statement (.staAbs abs16) := ⟨_, _, rfl, rfl, rfl, rfl⟩
theorem staIndY (zp8 : Byte) : Statement (.staIndY zp8) := ⟨_, _, rfl, rfl, rfl, rfl⟩
theorem staZpX (zp8 : Byte) : Statement (.staZpX zp8) := ⟨_, _, rfl, rfl, rfl, rfl⟩
theorem staAbsY (abs16 : Addr) : Statement (.staAbsY abs16) := ⟨_, _, rfl, rfl, rfl, rfl⟩
theorem staAbsX (abs16 : Addr) : Statement (.staAbsX abs16) := ⟨_, _, rfl, rfl, rfl, rfl⟩
theorem styZp (zp8 : Byte) : Statement (.styZp zp8) := ⟨_, _, rfl, rfl, rfl, rfl⟩
theorem styAbs (abs16 : Addr) : Statement (.styAbs abs16) := ⟨_, _, rfl, rfl, rfl, rfl⟩
theorem styZpX (zp8 : Byte) : Statement (.styZpX zp8) := ⟨_, _, rfl, rfl, rfl, rfl⟩
theorem stxZp (zp8 : Byte) : Statement (.stxZp zp8) := ⟨_, _, rfl, rfl, rfl, rfl⟩
theorem stxAbs (abs16 : Addr) : Statement (.stxAbs abs16) := ⟨_, _, rfl, rfl, rfl, rfl⟩
theorem stxZpY (zp8 : Byte) : Statement (.stxZpY zp8) := ⟨_, _, rfl, rfl, rfl, rfl⟩
theorem dey : Statement .dey := ⟨_, _, rfl, rfl, rfl, rfl⟩
theorem txa : Statement .txa := ⟨_, _, rfl, rfl, rfl, rfl⟩
theorem bcc (disp8 : Byte) : Statement (.bcc disp8) := ⟨_, _, rfl, rfl, rfl, rfl⟩
theorem tya : Statement .tya := ⟨_, _, rfl, rfl, rfl, rfl⟩
theorem txs : Statement .txs := ⟨_, _, rfl, rfl, rfl, rfl⟩
theorem ldyImm (imm8 : Byte) : Statement (.ldyImm imm8) := ⟨_, _, rfl, rfl, rfl, rfl⟩
theorem ldyZp (zp8 : Byte) : Statement (.ldyZp zp8) := ⟨_, _, rfl, rfl, rfl, rfl⟩
theorem ldyAbs (abs16 : Addr) : Statement (.ldyAbs abs16) := ⟨_, _, rfl, rfl, rfl, rfl⟩
theorem ldyZpX (zp8 : Byte) : Statement (.ldyZpX zp8) := ⟨_, _, rfl, rfl, rfl, rfl⟩
theorem ldyAbsX (abs16 : Addr) : Statement (.ldyAbsX abs16) := ⟨_, _, rfl, rfl, rfl, rfl⟩
theorem ldaIndX (zp8 : Byte) : Statement (.ldaIndX zp8) := ⟨_, _, rfl, rfl, rfl, rfl⟩
theorem ldaZp (zp8 : Byte) : Statement (.ldaZp zp8) := ⟨_, _, rfl, rfl, rfl, rfl⟩
theorem ldaImm (imm8 : Byte) : Statement (.ldaImm imm8) := ⟨_, _, rfl, rfl, rfl, rfl⟩
theorem ldaAbs (abs16 : Addr) : Statement (.ldaAbs abs16) := ⟨_, _, rfl, rfl, rfl, rfl⟩
theorem ldaIndY (zp8 : Byte) : Statement (.ldaIndY zp8) := ⟨_, _, rfl, rfl, rfl, rfl⟩
theorem ldaZpX (zp8 : Byte) : Statement (.ldaZpX zp8) := ⟨_, _, rfl, rfl, rfl, rfl⟩
theorem ldaAbsY (abs16 : Addr) : Statement (.ldaAbsY abs16) := ⟨_, _, rfl, rfl, rfl, rfl⟩
theorem ldaAbsX (abs16 : Addr) : Statement (.ldaAbsX abs16) := ⟨_, _, rfl, rfl, rfl, rfl⟩
theorem ldxImm (imm8 : Byte) : Statement (.ldxImm imm8) := ⟨_, _, rfl, rfl, rfl, rfl⟩
theorem ldxZp (zp8 : Byte) : Statement (.ldxZp zp8) := ⟨_, _, rfl, rfl, rfl, rfl⟩
theorem ldxAbs (abs16 : Addr) : Statement (.ldxAbs abs16) := ⟨_, _, rfl, rfl, rfl, rfl⟩
theorem ldxZpY (zp8 : Byte) : Statement (.ldxZpY zp8) := ⟨_, _, rfl, rfl, rfl, rfl⟩
theorem ldxAbsY (abs16 : Addr) : Statement (.ldxAbsY abs16) := ⟨_, _, rfl, rfl, rfl, rfl⟩
theorem tay : Statement .tay := ⟨_, _, rfl, rfl, rfl, rfl⟩
theorem tax : Statement .tax := ⟨_, _, rfl, rfl, rfl, rfl⟩
theorem bcs (disp8 : Byte) : Statement (.bcs disp8) := ⟨_, _, rfl, rfl, rfl, rfl⟩
theorem clv : Statement .clv := ⟨_, _, rfl, rfl, rfl, rfl⟩
theorem tsx : Statement .tsx := ⟨_, _, rfl, rfl, rfl, rfl⟩
theorem cpyImm (imm8 : Byte) : Statement (.cpyImm imm8) := ⟨_, _, rfl, rfl, rfl, rfl⟩
theorem cpyZp (zp8 : Byte) : Statement (.cpyZp zp8) := ⟨_, _, rfl, rfl, rfl, rfl⟩
theorem cpyAbs (abs16 : Addr) : Statement (.cpyAbs abs16) := ⟨_, _, rfl, rfl, rfl, rfl⟩
theorem cmpIndX (zp8 : Byte) : Statement (.cmpIndX zp8) := ⟨_, _, rfl, rfl, rfl, rfl⟩
theorem cmpZp (zp8 : Byte) : Statement (.cmpZp zp8) := ⟨_, _, rfl, rfl, rfl, rfl⟩
theorem cmpImm (imm8 : Byte) : Statement (.cmpImm imm8) := ⟨_, _, rfl, rfl, rfl, rfl⟩
theorem cmpAbs (abs16 : Addr) : Statement (.cmpAbs abs16) := ⟨_, _, rfl, rfl, rfl, rfl⟩
theorem cmpIndY (zp8 : Byte) : Statement (.cmpIndY zp8) := ⟨_, _, rfl, rfl, rfl, rfl⟩
theorem cmpZpX (zp8 : Byte) : Statement (.cmpZpX zp8) := ⟨_, _, rfl, rfl, rfl, rfl⟩
theorem cmpAbsY (abs16 : Addr) : Statement (.cmpAbsY abs16) := ⟨_, _, rfl, rfl, rfl, rfl⟩
theorem cmpAbsX (abs16 : Addr) : Statement (.cmpAbsX abs16) := ⟨_, _, rfl, rfl, rfl, rfl⟩
theorem decZp (zp8 : Byte) : Statement (.decZp zp8) := ⟨_, _, rfl, rfl, rfl, rfl⟩
theorem decAbs (abs16 : Addr) : Statement (.decAbs abs16) := ⟨_, _, rfl, rfl, rfl, rfl⟩
theorem decZpX (zp8 : Byte) : Statement (.decZpX zp8) := ⟨_, _, rfl, rfl, rfl, rfl⟩
theorem decAbsX (abs16 : Addr) : Statement (.decAbsX abs16) := ⟨_, _, rfl, rfl, rfl, rfl⟩
theorem iny : Statement .iny := ⟨_, _, rfl, rfl, rfl, rfl⟩
theorem dex : Statement .dex := ⟨_, _, rfl, rfl, rfl, rfl⟩
theorem bne (disp8 : Byte) : Statement (.bne disp8) := ⟨_, _, rfl, rfl, rfl, rfl⟩
theorem cld : Statement .cld := ⟨_, _, rfl, rfl, rfl, rfl⟩
theorem cpxImm (imm8 : Byte) : Statement (.cpxImm imm8) := ⟨_, _, rfl, rfl, rfl, rfl⟩
theorem cpxZp (zp8 : Byte) : Statement (.cpxZp zp8) := ⟨_, _, rfl, rfl, rfl, rfl⟩
theorem cpxAbs (abs16 : Addr) : Statement (.cpxAbs abs16) := ⟨_, _, rfl, rfl, rfl, rfl⟩
theorem sbcIndX (zp8 : Byte) : Statement (.sbcIndX zp8) := ⟨_, _, rfl, rfl, rfl, rfl⟩
theorem sbcZp (zp8 : Byte) : Statement (.sbcZp zp8) := ⟨_, _, rfl, rfl, rfl, rfl⟩
theorem sbcImm (imm8 : Byte) : Statement (.sbcImm imm8) := ⟨_, _, rfl, rfl, rfl, rfl⟩
theorem sbcAbs (abs16 : Addr) : Statement (.sbcAbs abs16) := ⟨_, _, rfl, rfl, rfl, rfl⟩
theorem sbcIndY (zp8 : Byte) : Statement (.sbcIndY zp8) := ⟨_, _, rfl, rfl, rfl, rfl⟩
theorem sbcZpX (zp8 : Byte) : Statement (.sbcZpX zp8) := ⟨_, _, rfl, rfl, rfl, rfl⟩
theorem sbcAbsY (abs16 : Addr) : Statement (.sbcAbsY abs16) := ⟨_, _, rfl, rfl, rfl, rfl⟩
theorem sbcAbsX (abs16 : Addr) : Statement (.sbcAbsX abs16) := ⟨_, _, rfl, rfl, rfl, rfl⟩
theorem incZp (zp8 : Byte) : Statement (.incZp zp8) := ⟨_, _, rfl, rfl, rfl, rfl⟩
theorem incAbs (abs16 : Addr) : Statement (.incAbs abs16) := ⟨_, _, rfl, rfl, rfl, rfl⟩
theorem incZpX (zp8 : Byte) : Statement (.incZpX zp8) := ⟨_, _, rfl, rfl, rfl, rfl⟩
theorem incAbsX (abs16 : Addr) : Statement (.incAbsX abs16) := ⟨_, _, rfl, rfl, rfl, rfl⟩
theorem inx : Statement .inx := ⟨_, _, rfl, rfl, rfl, rfl⟩
theorem nop : Statement .nop := ⟨_, _, rfl, rfl, rfl, rfl⟩
theorem beq (disp8 : Byte) : Statement (.beq disp8) := ⟨_, _, rfl, rfl, rfl, rfl⟩
theorem sed : Statement .sed := ⟨_, _, rfl, rfl, rfl, rfl⟩

end Sys2Proof.Laws.TableRow
end

