-- ==== Sys2Proof/Laws/Step.lean ====
section
/-! SUPPORT. What a step can do, said once; fetching bytes that stand in memory; and the encoder's bytes read back. -/

namespace Sys2Proof.Machine

/-! ### Fetching (R84, R101) -/

/-- An address whose byte can be peeked at is claimed and answers that byte without a device. -/
theorem memRead_of_peek {s : State} {addr : Addr} {b : Byte} (h : peek s addr = some b) :
    memRead addr s = .ok b { s with bus := s.bus ++ [.read addr b] } := by
  unfold peek at h
  unfold memRead
  cases hr : route s.cfg addr <;> simp_all [State.issue]

theorem HoldsAt.congr {bytes : List Byte} {addr : Addr} {s t : State} (h : ∀ a, peek t a = peek s a) :
    HoldsAt bytes addr s → HoldsAt bytes addr t := by
  induction bytes generalizing addr with
  | nil => exact id
  | cons b rest ih => exact fun hb => ⟨(h addr).trans hb.1, ih hb.2⟩

theorem fetchBytes_of_holdsAt {bytes : List Byte} {addr : Addr} {s : State} (h : HoldsAt bytes addr s) :
    fetchBytes bytes.length addr s = .ok bytes { s with bus := s.bus ++ readsOf bytes addr } := by
  induction bytes generalizing addr s with
  | nil => simp [fetchBytes, readsOf]
  | cons b rest ih =>
    simp only [List.length_cons, fetchBytes]
    have next : HoldsAt rest (addr + 1) { s with bus := s.bus ++ [.read addr b] } := HoldsAt.congr (s := s) (fun _ => rfl) h.2
    rw [bind_ok (memRead_of_peek h.1), bind_ok (ih next)]
    simp [readsOf]

/-- A decoded list has as many operand bytes as its opcode asks for, when nothing is left over. -/
theorem operandCount_of_decode {op : Byte} {rest : List Byte} {i : Instr} (h : decode (op :: rest) = .ok (i, [])) :
    operandCount op = some rest.length := by
  unfold decode at h
  unfold operandCount
  cases hc : opcodeTable op <;> simp only [hc] at h ⊢
  · simp at h
  · simp at h; simp [h]
  · cases rest with
    | nil => simp at h
    | cons b rest => simp at h; simp [h]
  · match rest with
    | [] => simp at h
    | [_] => simp at h
    | _ :: _ :: rest => simp at h; simp [h]

/-- Bytes at PC that decode to an instruction are fetched as that instruction (R84). -/
theorem fetchInstr_of_holdsAt {bytes : List Byte} {i : Instr} {s : State} (hd : decode bytes = .ok (i, []))
    (h : HoldsAt bytes s.pc s) : fetchInstr s = .ok i { s with bus := s.bus ++ readsOf bytes s.pc } := by
  match bytes with
  | [] => simp [decode] at hd
  | op :: rest =>
    have next : HoldsAt rest (s.pc + 1) { s with bus := s.bus ++ [.read s.pc op] } := HoldsAt.congr (s := s) (fun _ => rfl) h.2
    unfold fetchInstr
    rw [get_bind, bind_ok (memRead_of_peek h.1)]
    simp only [operandCount_of_decode hd]
    rw [bind_ok (fetchBytes_of_holdsAt next), hd]
    simp [readsOf]

/-! ### Fetching what the bus answers (R84, R101, R306) -/

@[simp] theorem length_answers (n : Nat) (addr : Addr) (s : State) : (answers n addr s).length = n := by
  induction n generalizing addr s <;> simp [answers, *]

/-- Reads at consecutive addresses change only the device counter, and record exactly themselves. -/
theorem afterReads_eq (n : Nat) (addr : Addr) (s : State) : afterReads n addr s =
    { s with draws := (afterReads n addr s).draws, bus := s.bus ++ readsOf (answers n addr s) addr } := by
  induction n generalizing addr s with
  | zero => simp [afterReads, answers, readsOf]
  | succ n ih => rw [afterReads, ih]; simp [answers, readsOf, afterRead]

theorem addr_succ_add (addr : Addr) (k : Nat) : addr + 1 + BitVec.ofNat 16 k = addr + BitVec.ofNat 16 (k + 1) := by
  apply BitVec.eq_of_toNat_eq; simp; omega

/-- Bytes at claimed addresses are fetched as the bus answers them. -/
theorem fetchBytes_ok {n : Nat} {addr : Addr} {s : State}
    (h : ∀ k, k < n → claimed s.cfg (addr + BitVec.ofNat 16 k) = true) :
    fetchBytes n addr s = .ok (answers n addr s) (afterReads n addr s) := by
  induction n generalizing addr s with
  | zero => rfl
  | succ n ih =>
    have next := ih (addr := addr + 1) (s := afterRead s addr) fun k hk => by
      rw [addr_succ_add]; exact h (k + 1) (by omega)
    rw [fetchBytes, bind_ok (memRead_ok (by simpa using h 0 (by omega))), bind_ok next]
    rfl

/-- The first unclaimed address among those of the bytes to fetch raises, the reads before it done. -/
theorem fetchBytes_error {n k : Nat} {addr : Addr} {s : State} (hk : k < n)
    (h : ∀ j, j < k → claimed s.cfg (addr + BitVec.ofNat 16 j) = true)
    (hc : claimed s.cfg (addr + BitVec.ofNat 16 k) = false) :
    fetchBytes n addr s = .error (.unmappedMemoryAccess (addr + BitVec.ofNat 16 k) .read) (afterReads k addr s) := by
  induction n generalizing k addr s with
  | zero => omega
  | succ n ih =>
    cases k with
    | zero =>
      rw [fetchBytes]
      simp at hc
      simpa [afterReads] using bind_error (memRead_error hc)
    | succ k =>
      have next := ih (k := k) (addr := addr + 1) (s := afterRead s addr) (by omega)
        (fun j hj => by rw [addr_succ_add]; exact h (j + 1) (by omega)) (by rw [addr_succ_add]; exact hc)
      rw [fetchBytes, bind_ok (memRead_ok (by simpa using h 0 (by omega))), bind_error next, addr_succ_add]
      rfl

/-- A fetch whose opcode byte is unclaimed raises that access. -/
theorem fetchInstr_unclaimed {s : State} (h : claimed s.cfg s.pc = false) :
    fetchInstr s = .error (.unmappedMemoryAccess s.pc .read) s := by
  unfold fetchInstr
  rw [get_bind]
  exact bind_error (memRead_error h)

/-- An illegal opcode raises after its own fetch (R301, R302). -/
theorem fetchInstr_illegal {s : State} (h : claimed s.cfg s.pc = true) (ho : operandCount (answer s s.pc) = none) :
    fetchInstr s = .error (.illegalOpcode (answer s s.pc) s.pc) (afterRead s s.pc) := by
  unfold fetchInstr
  rw [get_bind, bind_ok (memRead_ok h)]
  simp only [ho]
  rfl

/-- A legal opcode whose operand bytes are claimed is fetched, with them, as the bus answers (R84). -/
theorem fetchInstr_ok {s : State} {n : Nat} {i : Instr} (ho : operandCount (answer s s.pc) = some n)
    (h : ∀ k, k ≤ n → claimed s.cfg (s.pc + BitVec.ofNat 16 k) = true)
    (hd : decode (answers (n + 1) s.pc s) = .ok (i, [])) : fetchInstr s = .ok i (afterReads (n + 1) s.pc s) := by
  have next := fetchBytes_ok (n := n) (addr := s.pc + 1) (s := afterRead s s.pc) fun k hk => by
    rw [addr_succ_add]; exact h (k + 1) (by omega)
  have hd' : decode (answer s s.pc :: answers n (s.pc + 1) (afterRead s s.pc)) = .ok (i, []) := hd
  unfold fetchInstr
  rw [get_bind, bind_ok (memRead_ok (by simpa using h 0 (by omega)))]
  simp only [ho]
  rw [bind_ok next, hd']
  rfl

/-- The first unclaimed operand byte raises, the reads before it done (R306). -/
theorem fetchInstr_unclaimed_operand {s : State} {n k : Nat} (ho : operandCount (answer s s.pc) = some n) (hk : k < n)
    (h : ∀ j, j ≤ k → claimed s.cfg (s.pc + BitVec.ofNat 16 j) = true)
    (hc : claimed s.cfg (s.pc + BitVec.ofNat 16 (k + 1)) = false) :
    fetchInstr s = .error (.unmappedMemoryAccess (s.pc + BitVec.ofNat 16 (k + 1)) .read) (afterReads (k + 1) s.pc s) := by
  have next := fetchBytes_error (addr := s.pc + 1) (s := afterRead s s.pc) hk
    (fun j hj => by rw [addr_succ_add]; exact h (j + 1) (by omega)) (by rw [addr_succ_add]; exact hc)
  unfold fetchInstr
  rw [get_bind, bind_ok (memRead_ok (by simpa using h 0 (by omega)))]
  simp only [ho]
  rw [bind_error next, addr_succ_add]
  rfl

/-! ### What a step can do (R84, R305, R314) -/

theorem step_latched {s : State} {f : Fault} (h : s.fault = some f) : step s = .fault f := by
  simp [step, h]

theorem step_interrupt {s : State} {k : Interrupt} (h : s.fault = none) (hk : acceptedInterrupt s = some k) :
    step s = takeInterrupt k (beginRequest s) := by
  have : acceptedInterrupt (beginRequest s) = some k := hk
  simp [step, h, this]

theorem step_fetch_ok {s t : State} {i : Instr} (h : s.fault = none) (hk : acceptedInterrupt s = none)
    (hf : fetchInstr (beginRequest s) = .ok i t) : step s = exec i t := by
  have : acceptedInterrupt (beginRequest s) = none := hk
  simp [step, h, this, hf]

theorem step_fetch_error {s t : State} {f : Fault} (h : s.fault = none) (hk : acceptedInterrupt s = none)
    (hf : fetchInstr (beginRequest s) = .error f t) : step s = .next (latchFault (beginRequest s) f t) := by
  have : acceptedInterrupt (beginRequest s) = none := hk
  simp [step, h, this, hf]

/-- Everything a step that answers a next state can have done: an interrupt entry, one instruction, or a fault at the
fetch. -/
theorem step_cases {s u : State} (h : step s = .next u) :
    s.fault = none ∧
    ((∃ k, acceptedInterrupt s = some k ∧ takeInterrupt k (beginRequest s) = .next u) ∨
     (acceptedInterrupt s = none ∧ ∃ i t, fetchInstr (beginRequest s) = .ok i t ∧ exec i t = .next u) ∨
     (acceptedInterrupt s = none ∧ ∃ f t, fetchInstr (beginRequest s) = .error f t ∧
        u = latchFault (beginRequest s) f t)) := by
  cases hf : s.fault with
  | some f => rw [step_latched hf] at h; cases h
  | none =>
    refine ⟨rfl, ?_⟩
    cases hk : acceptedInterrupt s with
    | some k => exact .inl ⟨k, rfl, by rw [← step_interrupt hf hk, h]⟩
    | none =>
      right
      cases hi : fetchInstr (beginRequest s) with
      | ok i t => exact .inl ⟨rfl, i, t, rfl, by rw [← step_fetch_ok hf hk hi, h]⟩
      | error f t =>
        rw [step_fetch_error hf hk hi] at h
        exact .inr ⟨rfl, f, t, rfl, by cases h; rfl⟩

/-! ### Everything a fetch, an interrupt entry and a reset can answer -/

theorem memRead_cases (a : Addr) (s : State) :
    (∃ b d bus, s.draws ≤ d ∧ memRead a s = .ok b { s with draws := d, bus := bus }) ∨
    (claimed s.cfg a = false ∧ memRead a s = .error (.unmappedMemoryAccess a .read) s) := by
  by_cases h : claimed s.cfg a = true
  · refine .inl ⟨_, (afterRead s a).draws, (afterRead s a).bus, ?_, memRead_ok h⟩
    simp only [afterRead]; split <;> omega
  · exact .inr ⟨by simpa using h, memRead_error (by simpa using h)⟩

theorem fetchBytes_cases (n : Nat) (a : Addr) (s : State) :
    (∃ bs d bus, s.draws ≤ d ∧ bs.length = n ∧ fetchBytes n a s = .ok bs { s with draws := d, bus := bus }) ∨
    (∃ a' d bus, s.draws ≤ d ∧ claimed s.cfg a' = false ∧
      fetchBytes n a s = .error (.unmappedMemoryAccess a' .read) { s with draws := d, bus := bus }) := by
  induction n generalizing a s with
  | zero => exact .inl ⟨[], s.draws, s.bus, le_refl _, rfl, rfl⟩
  | succ n ih =>
    unfold fetchBytes
    rcases memRead_cases a s with ⟨b, d, bus, hd, e⟩ | ⟨hc, e⟩
    · rw [bind_ok e]
      rcases ih (a + 1) { s with draws := d, bus := bus } with ⟨bs, d', bus', hd', hl, e'⟩ | ⟨a', d', bus', hd', hc', e'⟩
      · rw [bind_ok e']
        exact .inl ⟨_, d', bus', le_trans hd hd', by simp [hl], rfl⟩
      · rw [bind_error e']
        exact .inr ⟨a', d', bus', le_trans hd hd', hc', rfl⟩
    · rw [bind_error e]
      exact .inr ⟨a, s.draws, s.bus, le_refl _, hc, rfl⟩

theorem decode_of_operandCount {op : Byte} {n : Nat} {rest : List Byte} (h : operandCount op = some n)
    (hl : rest.length = n) : ∃ i, decode (op :: rest) = .ok (i, []) := by
  unfold operandCount at h
  unfold decode
  cases hc : opcodeTable op <;> simp only [hc] at h ⊢
  · cases h
  · cases h; cases rest <;> simp at hl ⊢
  · cases h
    match rest, hl with
    | [b], _ => exact ⟨_, rfl⟩
  · cases h
    match rest, hl with
    | [b, c], _ => exact ⟨_, rfl⟩

/-- A fetch answers an instruction, or raises an unclaimed access or the illegal opcode (R84, R301, R306); it changes nothing
but the device counter and the record of transactions. -/
theorem fetchInstr_cases (s : State) :
    (∃ i d bus, s.draws ≤ d ∧ fetchInstr s = .ok i { s with draws := d, bus := bus }) ∨
    (∃ f d bus, s.draws ≤ d ∧ fetchInstr s = .error f { s with draws := d, bus := bus } ∧
      ((∃ a, claimed s.cfg a = false ∧ f = .unmappedMemoryAccess a .read) ∨
        (∃ op, operandCount op = none ∧ f = .illegalOpcode op s.pc))) := by
  unfold fetchInstr
  rw [get_bind]
  rcases memRead_cases s.pc s with ⟨b, d, bus, hd, e⟩ | ⟨hc, e⟩
  · rw [bind_ok e]
    cases ho : operandCount b with
    | none => exact .inr ⟨_, d, bus, hd, rfl, .inr ⟨b, ho, rfl⟩⟩
    | some n =>
      rcases fetchBytes_cases n (s.pc + 1) { s with draws := d, bus := bus } with
        ⟨bs, d', bus', hd', hl, e'⟩ | ⟨a', d', bus', hd', hc', e'⟩
      · obtain ⟨i, hi⟩ := decode_of_operandCount ho hl
        refine .inl ⟨i, d', bus', le_trans hd hd', ?_⟩
        simp only []
        rw [bind_ok e']
        simp only [hi]; rfl
      · refine .inr ⟨_, d', bus', le_trans hd hd', ?_, .inl ⟨a', hc', rfl⟩⟩
        simp only []
        rw [bind_error e']
  · rw [bind_error e]
    exact .inr ⟨_, s.draws, s.bus, le_refl _, rfl, .inl ⟨s.pc, hc, rfl⟩⟩

/-- A reset has its vector, or latches the unclaimed access to it (R330, R332). -/
theorem resetRequest_cases (s : State) :
    (claimed s.cfg resetVector = true ∧
      resetRequest s = { afterRead16 (resetRegisters s) resetVector with
        pc := answer16 (resetRegisters s) resetVector }) ∨
    (claimed s.cfg resetVector = false ∧
      resetRequest s = { resetRegisters s with
        pc := 0x0000, fault := some (.unmappedMemoryAccess resetVector .read) }) := by
  unfold resetRequest
  cases h : claimed s.cfg resetVector
  · rw [read16_error_low (by exact h)]
    simp
  · rw [read16_ok (by exact (claimed16_resetVector _).trans h)]
    simp

/-- An NMI entry: `nmi_pending` cleared, then the entry, or its vector's unclaimed access latched (R313, R315; log
entry 7). -/
theorem takeInterrupt_nmi (s : State) : takeInterrupt .nmi s =
    .next (if claimed s.cfg nmiVector then afterEntry { s with nmiPending := false } s.pc false nmiVector
      else latchFault s (.unmappedMemoryAccess nmiVector .read)
        (afterEntryPushes { s with nmiPending := false } s.pc false)) := by
  unfold takeInterrupt
  cases h : claimed s.cfg nmiVector
  · refine (runInstr_error (f := .unmappedMemoryAccess nmiVector .read)
      (t := { afterEntryPushes { s with nmiPending := false } s.pc false with p := { s.p with i := true } }) ?_).trans ?_
    · rw [modify_bind]
      exact enterHandler_error _ _ h
    · rfl
  · refine runInstr_ok ?_
    rw [modify_bind]
    exact enterHandler_ok _ _ ((claimed16_nmiVector _).trans h)

/-- An IRQ entry, or its vector's unclaimed access latched (R314, R315). -/
theorem takeInterrupt_irq (s : State) : takeInterrupt .irq s =
    .next (if claimed s.cfg irqVector then afterEntry s s.pc false irqVector
      else latchFault s (.unmappedMemoryAccess irqVector .read) (afterEntryPushes s s.pc false)) := by
  unfold takeInterrupt
  cases h : claimed s.cfg irqVector
  · exact (runInstr_error (enterHandler_error _ _ h)).trans rfl
  · exact runInstr_ok (enterHandler_ok _ _ ((claimed16_irqVector _).trans h))

end Sys2Proof.Machine
end

