-- ==== Sys2Proof/Laws/Table.lean ====
section
/-! SUPPORT. The decode table as a list of rows, and facts about all 256 opcodes told from it (spec/30_encoding.md R80). -/

namespace Sys2Proof.Machine

/-- An opcode is its row and its column of the table. -/
theorem forall_byte_of_nibbles {P : Byte → Prop} (h : ∀ row col : Fin 16, P (BitVec.ofNat 8 (16 * row + col)))
    (op : Byte) : P op := by
  have lt := op.isLt
  have := h ⟨op.toNat / 16, by omega⟩ ⟨op.toNat % 16, by omega⟩
  have e : BitVec.ofNat 8 (16 * (op.toNat / 16) + op.toNat % 16) = op := by
    rw [Nat.div_add_mod]; exact BitVec.ofNat_toNat 8 op |>.trans (BitVec.setWidth_eq op)
  rwa [e] at this

/-- Row 0_ of R80. -/
def tableRow0 : List (Byte × Mnemonic × Form) :=
  [(0x00, .brk, .implied), (0x01, .ora, .indexedIndirectX), (0x05, .ora, .zeroPage), (0x06, .asl, .zeroPage),
   (0x08, .php, .implied), (0x09, .ora, .immediate), (0x0A, .asl, .accumulator), (0x0D, .ora, .absolute),
   (0x0E, .asl, .absolute)]

/-- Row 1_ of R80. -/
def tableRow1 : List (Byte × Mnemonic × Form) :=
  [(0x10, .bpl, .relative), (0x11, .ora, .indirectIndexedY), (0x15, .ora, .zeroPageX),
   (0x16, .asl, .zeroPageX), (0x18, .clc, .implied), (0x19, .ora, .absoluteY), (0x1D, .ora, .absoluteX),
   (0x1E, .asl, .absoluteX)]

/-- Row 2_ of R80. -/
def tableRow2 : List (Byte × Mnemonic × Form) :=
  [(0x20, .jsr, .absoluteTarget), (0x21, .and, .indexedIndirectX), (0x24, .bit, .zeroPage),
   (0x25, .and, .zeroPage), (0x26, .rol, .zeroPage), (0x28, .plp, .implied), (0x29, .and, .immediate),
   (0x2A, .rol, .accumulator), (0x2C, .bit, .absolute), (0x2D, .and, .absolute), (0x2E, .rol, .absolute)]

/-- Row 3_ of R80. -/
def tableRow3 : List (Byte × Mnemonic × Form) :=
  [(0x30, .bmi, .relative), (0x31, .and, .indirectIndexedY), (0x35, .and, .zeroPageX),
   (0x36, .rol, .zeroPageX), (0x38, .sec, .implied), (0x39, .and, .absoluteY), (0x3D, .and, .absoluteX),
   (0x3E, .rol, .absoluteX)]

/-- Row 4_ of R80. -/
def tableRow4 : List (Byte × Mnemonic × Form) :=
  [(0x40, .rti, .implied), (0x41, .eor, .indexedIndirectX), (0x45, .eor, .zeroPage), (0x46, .lsr, .zeroPage),
   (0x48, .pha, .implied), (0x49, .eor, .immediate), (0x4A, .lsr, .accumulator),
   (0x4C, .jmp, .absoluteTarget), (0x4D, .eor, .absolute), (0x4E, .lsr, .absolute)]

/-- Row 5_ of R80. -/
def tableRow5 : List (Byte × Mnemonic × Form) :=
  [(0x50, .bvc, .relative), (0x51, .eor, .indirectIndexedY), (0x55, .eor, .zeroPageX),
   (0x56, .lsr, .zeroPageX), (0x58, .cli, .implied), (0x59, .eor, .absoluteY), (0x5D, .eor, .absoluteX),
   (0x5E, .lsr, .absoluteX)]

/-- Row 6_ of R80. -/
def tableRow6 : List (Byte × Mnemonic × Form) :=
  [(0x60, .rts, .implied), (0x61, .adc, .indexedIndirectX), (0x65, .adc, .zeroPage), (0x66, .ror, .zeroPage),
   (0x68, .pla, .implied), (0x69, .adc, .immediate), (0x6A, .ror, .accumulator),
   (0x6C, .jmp, .indirectPointer), (0x6D, .adc, .absolute), (0x6E, .ror, .absolute)]

/-- Row 7_ of R80. -/
def tableRow7 : List (Byte × Mnemonic × Form) :=
  [(0x70, .bvs, .relative), (0x71, .adc, .indirectIndexedY), (0x75, .adc, .zeroPageX),
   (0x76, .ror, .zeroPageX), (0x78, .sei, .implied), (0x79, .adc, .absoluteY), (0x7D, .adc, .absoluteX),
   (0x7E, .ror, .absoluteX)]

/-- Row 8_ of R80. -/
def tableRow8 : List (Byte × Mnemonic × Form) :=
  [(0x81, .sta, .indexedIndirectX), (0x84, .sty, .zeroPage), (0x85, .sta, .zeroPage),
   (0x86, .stx, .zeroPage), (0x88, .dey, .implied), (0x8A, .txa, .implied), (0x8C, .sty, .absolute),
   (0x8D, .sta, .absolute), (0x8E, .stx, .absolute)]

/-- Row 9_ of R80. -/
def tableRow9 : List (Byte × Mnemonic × Form) :=
  [(0x90, .bcc, .relative), (0x91, .sta, .indirectIndexedY), (0x94, .sty, .zeroPageX),
   (0x95, .sta, .zeroPageX), (0x96, .stx, .zeroPageY), (0x98, .tya, .implied), (0x99, .sta, .absoluteY),
   (0x9A, .txs, .implied), (0x9D, .sta, .absoluteX)]

/-- Row A_ of R80. -/
def tableRowA : List (Byte × Mnemonic × Form) :=
  [(0xA0, .ldy, .immediate), (0xA1, .lda, .indexedIndirectX), (0xA2, .ldx, .immediate),
   (0xA4, .ldy, .zeroPage), (0xA5, .lda, .zeroPage), (0xA6, .ldx, .zeroPage), (0xA8, .tay, .implied),
   (0xA9, .lda, .immediate), (0xAA, .tax, .implied), (0xAC, .ldy, .absolute), (0xAD, .lda, .absolute),
   (0xAE, .ldx, .absolute)]

/-- Row B_ of R80. -/
def tableRowB : List (Byte × Mnemonic × Form) :=
  [(0xB0, .bcs, .relative), (0xB1, .lda, .indirectIndexedY), (0xB4, .ldy, .zeroPageX),
   (0xB5, .lda, .zeroPageX), (0xB6, .ldx, .zeroPageY), (0xB8, .clv, .implied), (0xB9, .lda, .absoluteY),
   (0xBA, .tsx, .implied), (0xBC, .ldy, .absoluteX), (0xBD, .lda, .absoluteX), (0xBE, .ldx, .absoluteY)]

/-- Row C_ of R80. -/
def tableRowC : List (Byte × Mnemonic × Form) :=
  [(0xC0, .cpy, .immediate), (0xC1, .cmp, .indexedIndirectX), (0xC4, .cpy, .zeroPage),
   (0xC5, .cmp, .zeroPage), (0xC6, .dec, .zeroPage), (0xC8, .iny, .implied), (0xC9, .cmp, .immediate),
   (0xCA, .dex, .implied), (0xCC, .cpy, .absolute), (0xCD, .cmp, .absolute), (0xCE, .dec, .absolute)]

/-- Row D_ of R80. -/
def tableRowD : List (Byte × Mnemonic × Form) :=
  [(0xD0, .bne, .relative), (0xD1, .cmp, .indirectIndexedY), (0xD5, .cmp, .zeroPageX),
   (0xD6, .dec, .zeroPageX), (0xD8, .cld, .implied), (0xD9, .cmp, .absoluteY), (0xDD, .cmp, .absoluteX),
   (0xDE, .dec, .absoluteX)]

/-- Row E_ of R80. -/
def tableRowE : List (Byte × Mnemonic × Form) :=
  [(0xE0, .cpx, .immediate), (0xE1, .sbc, .indexedIndirectX), (0xE4, .cpx, .zeroPage),
   (0xE5, .sbc, .zeroPage), (0xE6, .inc, .zeroPage), (0xE8, .inx, .implied), (0xE9, .sbc, .immediate),
   (0xEA, .nop, .implied), (0xEC, .cpx, .absolute), (0xED, .sbc, .absolute), (0xEE, .inc, .absolute)]

/-- Row F_ of R80. -/
def tableRowF : List (Byte × Mnemonic × Form) :=
  [(0xF0, .beq, .relative), (0xF1, .sbc, .indirectIndexedY), (0xF5, .sbc, .zeroPageX),
   (0xF6, .inc, .zeroPageX), (0xF8, .sed, .implied), (0xF9, .sbc, .absoluteY), (0xFD, .sbc, .absoluteX),
   (0xFE, .inc, .absoluteX)]

/-- The 151 cells of R80 that hold an instruction. -/
def tableRows : List (Byte × Mnemonic × Form) :=
  tableRow0 ++ tableRow1 ++ tableRow2 ++ tableRow3 ++ tableRow4 ++ tableRow5 ++ tableRow6 ++ tableRow7 ++
  tableRow8 ++ tableRow9 ++ tableRowA ++ tableRowB ++ tableRowC ++ tableRowD ++ tableRowE ++ tableRowF

/-- The rows of an opcode are what its cell says. -/
theorem filter_tableRows (op : Byte) : (tableRows.filter fun r => r.1 == op) =
    match opcodeRow op with
    | none => []
    | some (m, form) => [(op, m, form)] := by
  revert op
  apply forall_byte_of_nibbles
  decide +kernel

theorem opcodeRow_eq_some {op : Byte} {m : Mnemonic} {form : Form} :
    opcodeRow op = some (m, form) ↔ (op, m, form) ∈ tableRows := by
  have hmem : (op, m, form) ∈ tableRows ↔ (op, m, form) ∈ tableRows.filter fun r => r.1 == op := by simp
  rw [hmem, filter_tableRows]
  rcases opcodeRow op with _ | ⟨m', f⟩
  · simp
  · simp [eq_comm]

/-- `Assigns` as a check of the table's rows. -/
theorem assigns_of_rows {m : Mnemonic} {rows : List (Byte × Form)}
    (h : (tableRows.all fun r => r.2.1 != m || rows.contains (r.1, r.2.2)) = true)
    (h' : (rows.all fun r => tableRows.contains (r.1, m, r.2)) = true) : Assigns m rows := by
  intro op form
  rw [opcodeRow_eq_some]
  constructor
  · intro hr
    simpa using List.all_eq_true.1 h _ hr
  · intro hr
    simpa using List.all_eq_true.1 h' _ hr

theorem operandCount_eq_none {op : Byte} : operandCount op = none ↔ opcodeRow op = none := by
  unfold operandCount opcodeRow
  cases opcodeTable op <;> simp

end Sys2Proof.Machine
end

