-- ==== Sys2Proof/Tests/Slice0.lean ====
section
/-! SUPPORT. Tests: the well-formedness checks refuse what they should, every opcode decodes as a word written from the
spec's encoding says, one step of most instructions gives what spec/95_test_vectors.md says, and a named state meets the
hypotheses of every statement that has hypotheses. -/

namespace Sys2Proof.Machine.Tests

/-! ### Well-formedness (spec/40_addressing.md R119, spec/30_encoding.md R83) -/

/-- Stores, shifts and increments have no immediate form, and JMP has no indexed one. -/
theorem test_pairing_refuses : ([(.sta, .immediate), (.stx, .absoluteY), (.sty, .absoluteY), (.inc, .accumulator),
    (.bit, .zeroPageX), (.asl, .immediate), (.jsr, .absolute), (.jmp, .absoluteX), (.ldx, .zeroPageX),
    (.cpx, .zeroPageX), (.bne, .immediate), (.nop, .accumulator)] : List (Mnemonic × Form)).all
      (fun c => !pairing c.1 c.2) = true := by decide

theorem test_pairing_admits : ([(.lda, .indexedIndirectX), (.ldx, .absoluteY), (.stx, .zeroPageY), (.jmp, .indirectPointer),
    (.ror, .accumulator), (.brk, .implied)] : List (Mnemonic × Form)).all (fun c => pairing c.1 c.2) = true := by decide

theorem test_wellFormed : (Instr.staIndY 0x40).wellFormed = true ∧ (Instr.rolAcc).wellFormed = true := by decide

/-! ### Decoding: the opcode bits as `aaa_bbb_cc` (spec/30_encoding.md R71, R80), operands low byte first (R81) -/

/-- Whether each byte list decodes to its instruction with nothing left. -/
def decodesTo (l : List (List Byte × Instr)) : Bool :=
  l.all fun c =>
    match decode c.1 with
    | .ok (i, []) => i == c.2
    | _ => false

theorem test_decode_row0 : decodesTo
    [([0b000_000_00], .brk), ([0b000_000_01, 0xC5], .oraIndX 0xC5), ([0b000_001_01, 0xC5], .oraZp 0xC5),
     ([0b000_001_10, 0xC5], .aslZp 0xC5), ([0b000_010_00], .php), ([0b000_010_01, 0xC5], .oraImm 0xC5),
     ([0b000_010_10], .aslAcc), ([0b000_011_01, 0x34, 0x12], .oraAbs 0x1234),
     ([0b000_011_10, 0x34, 0x12], .aslAbs 0x1234)] = true := by decide

theorem test_decode_row1 : decodesTo
    [([0b000_100_00, 0xC5], .bpl 0xC5), ([0b000_100_01, 0xC5], .oraIndY 0xC5),
     ([0b000_101_01, 0xC5], .oraZpX 0xC5), ([0b000_101_10, 0xC5], .aslZpX 0xC5), ([0b000_110_00], .clc),
     ([0b000_110_01, 0x34, 0x12], .oraAbsY 0x1234), ([0b000_111_01, 0x34, 0x12], .oraAbsX 0x1234),
     ([0b000_111_10, 0x34, 0x12], .aslAbsX 0x1234)] = true := by decide

theorem test_decode_row2 : decodesTo
    [([0b001_000_00, 0x34, 0x12], .jsr 0x1234), ([0b001_000_01, 0xC5], .andIndX 0xC5),
     ([0b001_001_00, 0xC5], .bitZp 0xC5), ([0b001_001_01, 0xC5], .andZp 0xC5),
     ([0b001_001_10, 0xC5], .rolZp 0xC5), ([0b001_010_00], .plp), ([0b001_010_01, 0xC5], .andImm 0xC5),
     ([0b001_010_10], .rolAcc), ([0b001_011_00, 0x34, 0x12], .bitAbs 0x1234),
     ([0b001_011_01, 0x34, 0x12], .andAbs 0x1234), ([0b001_011_10, 0x34, 0x12], .rolAbs 0x1234)] = true := by decide

theorem test_decode_row3 : decodesTo
    [([0b001_100_00, 0xC5], .bmi 0xC5), ([0b001_100_01, 0xC5], .andIndY 0xC5),
     ([0b001_101_01, 0xC5], .andZpX 0xC5), ([0b001_101_10, 0xC5], .rolZpX 0xC5), ([0b001_110_00], .sec),
     ([0b001_110_01, 0x34, 0x12], .andAbsY 0x1234), ([0b001_111_01, 0x34, 0x12], .andAbsX 0x1234),
     ([0b001_111_10, 0x34, 0x12], .rolAbsX 0x1234)] = true := by decide

theorem test_decode_row4 : decodesTo
    [([0b010_000_00], .rti), ([0b010_000_01, 0xC5], .eorIndX 0xC5), ([0b010_001_01, 0xC5], .eorZp 0xC5),
     ([0b010_001_10, 0xC5], .lsrZp 0xC5), ([0b010_010_00], .pha), ([0b010_010_01, 0xC5], .eorImm 0xC5),
     ([0b010_010_10], .lsrAcc), ([0b010_011_00, 0x34, 0x12], .jmpAbs 0x1234),
     ([0b010_011_01, 0x34, 0x12], .eorAbs 0x1234), ([0b010_011_10, 0x34, 0x12], .lsrAbs 0x1234)] = true := by decide

theorem test_decode_row5 : decodesTo
    [([0b010_100_00, 0xC5], .bvc 0xC5), ([0b010_100_01, 0xC5], .eorIndY 0xC5),
     ([0b010_101_01, 0xC5], .eorZpX 0xC5), ([0b010_101_10, 0xC5], .lsrZpX 0xC5), ([0b010_110_00], .cli),
     ([0b010_110_01, 0x34, 0x12], .eorAbsY 0x1234), ([0b010_111_01, 0x34, 0x12], .eorAbsX 0x1234),
     ([0b010_111_10, 0x34, 0x12], .lsrAbsX 0x1234)] = true := by decide

theorem test_decode_row6 : decodesTo
    [([0b011_000_00], .rts), ([0b011_000_01, 0xC5], .adcIndX 0xC5), ([0b011_001_01, 0xC5], .adcZp 0xC5),
     ([0b011_001_10, 0xC5], .rorZp 0xC5), ([0b011_010_00], .pla), ([0b011_010_01, 0xC5], .adcImm 0xC5),
     ([0b011_010_10], .rorAcc), ([0b011_011_00, 0x34, 0x12], .jmpInd 0x1234),
     ([0b011_011_01, 0x34, 0x12], .adcAbs 0x1234), ([0b011_011_10, 0x34, 0x12], .rorAbs 0x1234)] = true := by decide

theorem test_decode_row7 : decodesTo
    [([0b011_100_00, 0xC5], .bvs 0xC5), ([0b011_100_01, 0xC5], .adcIndY 0xC5),
     ([0b011_101_01, 0xC5], .adcZpX 0xC5), ([0b011_101_10, 0xC5], .rorZpX 0xC5), ([0b011_110_00], .sei),
     ([0b011_110_01, 0x34, 0x12], .adcAbsY 0x1234), ([0b011_111_01, 0x34, 0x12], .adcAbsX 0x1234),
     ([0b011_111_10, 0x34, 0x12], .rorAbsX 0x1234)] = true := by decide

theorem test_decode_row8 : decodesTo
    [([0b100_000_01, 0xC5], .staIndX 0xC5), ([0b100_001_00, 0xC5], .styZp 0xC5),
     ([0b100_001_01, 0xC5], .staZp 0xC5), ([0b100_001_10, 0xC5], .stxZp 0xC5), ([0b100_010_00], .dey),
     ([0b100_010_10], .txa), ([0b100_011_00, 0x34, 0x12], .styAbs 0x1234),
     ([0b100_011_01, 0x34, 0x12], .staAbs 0x1234), ([0b100_011_10, 0x34, 0x12], .stxAbs 0x1234)] = true := by decide

theorem test_decode_row9 : decodesTo
    [([0b100_100_00, 0xC5], .bcc 0xC5), ([0b100_100_01, 0xC5], .staIndY 0xC5),
     ([0b100_101_00, 0xC5], .styZpX 0xC5), ([0b100_101_01, 0xC5], .staZpX 0xC5),
     ([0b100_101_10, 0xC5], .stxZpY 0xC5), ([0b100_110_00], .tya),
     ([0b100_110_01, 0x34, 0x12], .staAbsY 0x1234), ([0b100_110_10], .txs),
     ([0b100_111_01, 0x34, 0x12], .staAbsX 0x1234)] = true := by decide

theorem test_decode_rowA : decodesTo
    [([0b101_000_00, 0xC5], .ldyImm 0xC5), ([0b101_000_01, 0xC5], .ldaIndX 0xC5),
     ([0b101_000_10, 0xC5], .ldxImm 0xC5), ([0b101_001_00, 0xC5], .ldyZp 0xC5),
     ([0b101_001_01, 0xC5], .ldaZp 0xC5), ([0b101_001_10, 0xC5], .ldxZp 0xC5), ([0b101_010_00], .tay),
     ([0b101_010_01, 0xC5], .ldaImm 0xC5), ([0b101_010_10], .tax),
     ([0b101_011_00, 0x34, 0x12], .ldyAbs 0x1234), ([0b101_011_01, 0x34, 0x12], .ldaAbs 0x1234),
     ([0b101_011_10, 0x34, 0x12], .ldxAbs 0x1234)] = true := by decide

theorem test_decode_rowB : decodesTo
    [([0b101_100_00, 0xC5], .bcs 0xC5), ([0b101_100_01, 0xC5], .ldaIndY 0xC5),
     ([0b101_101_00, 0xC5], .ldyZpX 0xC5), ([0b101_101_01, 0xC5], .ldaZpX 0xC5),
     ([0b101_101_10, 0xC5], .ldxZpY 0xC5), ([0b101_110_00], .clv),
     ([0b101_110_01, 0x34, 0x12], .ldaAbsY 0x1234), ([0b101_110_10], .tsx),
     ([0b101_111_00, 0x34, 0x12], .ldyAbsX 0x1234), ([0b101_111_01, 0x34, 0x12], .ldaAbsX 0x1234),
     ([0b101_111_10, 0x34, 0x12], .ldxAbsY 0x1234)] = true := by decide

theorem test_decode_rowC : decodesTo
    [([0b110_000_00, 0xC5], .cpyImm 0xC5), ([0b110_000_01, 0xC5], .cmpIndX 0xC5),
     ([0b110_001_00, 0xC5], .cpyZp 0xC5), ([0b110_001_01, 0xC5], .cmpZp 0xC5),
     ([0b110_001_10, 0xC5], .decZp 0xC5), ([0b110_010_00], .iny), ([0b110_010_01, 0xC5], .cmpImm 0xC5),
     ([0b110_010_10], .dex), ([0b110_011_00, 0x34, 0x12], .cpyAbs 0x1234),
     ([0b110_011_01, 0x34, 0x12], .cmpAbs 0x1234), ([0b110_011_10, 0x34, 0x12], .decAbs 0x1234)] = true := by decide

theorem test_decode_rowD : decodesTo
    [([0b110_100_00, 0xC5], .bne 0xC5), ([0b110_100_01, 0xC5], .cmpIndY 0xC5),
     ([0b110_101_01, 0xC5], .cmpZpX 0xC5), ([0b110_101_10, 0xC5], .decZpX 0xC5), ([0b110_110_00], .cld),
     ([0b110_110_01, 0x34, 0x12], .cmpAbsY 0x1234), ([0b110_111_01, 0x34, 0x12], .cmpAbsX 0x1234),
     ([0b110_111_10, 0x34, 0x12], .decAbsX 0x1234)] = true := by decide

theorem test_decode_rowE : decodesTo
    [([0b111_000_00, 0xC5], .cpxImm 0xC5), ([0b111_000_01, 0xC5], .sbcIndX 0xC5),
     ([0b111_001_00, 0xC5], .cpxZp 0xC5), ([0b111_001_01, 0xC5], .sbcZp 0xC5),
     ([0b111_001_10, 0xC5], .incZp 0xC5), ([0b111_010_00], .inx), ([0b111_010_01, 0xC5], .sbcImm 0xC5),
     ([0b111_010_10], .nop), ([0b111_011_00, 0x34, 0x12], .cpxAbs 0x1234),
     ([0b111_011_01, 0x34, 0x12], .sbcAbs 0x1234), ([0b111_011_10, 0x34, 0x12], .incAbs 0x1234)] = true := by decide

theorem test_decode_rowF : decodesTo
    [([0b111_100_00, 0xC5], .beq 0xC5), ([0b111_100_01, 0xC5], .sbcIndY 0xC5),
     ([0b111_101_01, 0xC5], .sbcZpX 0xC5), ([0b111_101_10, 0xC5], .incZpX 0xC5), ([0b111_110_00], .sed),
     ([0b111_110_01, 0x34, 0x12], .sbcAbsY 0x1234), ([0b111_111_01, 0x34, 0x12], .sbcAbsX 0x1234),
     ([0b111_111_10, 0x34, 0x12], .incAbsX 0x1234)] = true := by decide

theorem test_decode_illegal : ([0x02, 0x89, 0xFF, 0x80, 0x9E, 0x1A, 0x0B, 0x9C, 0x34, 0xB2] : List Byte).all
    (fun op => match decode [op, 0x10, 0x00] with
      | .error (.illegalOpcode op') => op == op'
      | _ => false) = true := by decide

theorem test_decode_too_short : decode [0x4C, 0x34] = .error .tooShort ∧ decode [] = .error .tooShort := by decide

/-- Bit 0 of a table number is bit 0 of the opcode byte; the bits above the row's are zero. -/
theorem test_decodeTableWord : decodeTableWord 8 0xA9 = some (.ldaImm 0x00) ∧
    decodeTableWord 24 0x12344C = some (.jmpAbs 0x1234) ∧ decodeTableWord 8 0x02 = none := by decide

/-! ### One step on a small state: the vectors of spec/95_test_vectors.md sections 1 to 3, named by their ids -/

/-- The state of the vectors' conventions: every register and flag 0, PC 0x0300, no cartridge. -/
def blank : State :=
  { State.reset with sp := 0, pc := 0x0300, p := { c := false, z := false, i := false, d := false, v := false, n := false } }

/-- The cartridge of the vectors: 32 KiB NROM with Read16(0xFFFE) = 0x9000 and Read16(0xFFFA) = 0xA000, and reset vector
0x8000. -/
def nrom : Config :=
  { Config.standard with
    cartPresent := true
    prgRom := [(0x7FFB, 0xA0), (0x7FFD, 0x80), (0x7FFF, 0x90)] }

/-- `blank` with that cartridge. -/
def withVector : State := { blank with cfg := nrom }

/-- `s` with code at 0x0300, bytes of RAM set, and registers set. -/
def start (s : State) (code : List Byte) (cells : List (Nat × Byte)) (set : State → State) : State :=
  set { s with ram := cells.foldl (fun m c => m.write c.1 c.2) (pokeAll code 0x0300 s).ram }

/-- The writes of the latest request. -/
def writes (s : State) : List (Addr × Byte) :=
  s.bus.filterMap fun e =>
    match e with
    | .read _ _ => none
    | .write addr v => some (addr, v)

/-- Whether a step gives the registers and flags of `change s`, no fault, and these writes. -/
def gives (s : State) (change : State → State) (ws : List (Addr × Byte)) : Bool :=
  match step s with
  | .next t =>
    let u := change s
    decide (t.a = u.a ∧ t.x = u.x ∧ t.y = u.y ∧ t.sp = u.sp ∧ t.pc = u.pc ∧ t.p = u.p ∧ t.fault = none ∧ writes t = ws)
  | _ => false

/-- Whether a step answers a next state of which a check holds. -/
def after (s : State) (check : State → Bool) : Bool :=
  match step s with
  | .next t => check t
  | _ => false


/-- ADR1 -/
theorem test_ADR1_ldaZp : gives (start blank [0xA5, 0x10] [(0x0010, 0x55)] (id))
    (fun s => { s with a := 0x55, pc := 0x0302 }) [] = true := by decide

/-- ADR2 -/
theorem test_ADR2_ldaZpX : gives (start blank [0xB5, 0xFF] [(0x0001, 0xAB), (0x0101, 0xEE)] (fun s => { s with x := 0x02 }))
    (fun s => { s with a := 0xAB, pc := 0x0302, p := { s.p with n := true } }) [] = true := by decide

/-- ADR3 -/
theorem test_ADR3_ldxZpY : gives (start blank [0xB6, 0xF0] [(0x0010, 0x11)] (fun s => { s with y := 0x20 }))
    (fun s => { s with x := 0x11, pc := 0x0302 }) [] = true := by decide

/-- ADR4 -/
theorem test_ADR4_ldaIndX : gives (start blank [0xA1, 0x20] [(0x0024, 0x00), (0x0025, 0x05), (0x0500, 0x3C)] (fun s => { s with x := 0x04 }))
    (fun s => { s with a := 0x3C, pc := 0x0302 }) [] = true := by decide

/-- ADR5 -/
theorem test_ADR5_ldaIndX : gives (start blank [0xA1, 0xFE] [(0x00FF, 0x00), (0x0000, 0x04), (0x0100, 0x06), (0x0400, 0x77)] (fun s => { s with x := 0x01 }))
    (fun s => { s with a := 0x77, pc := 0x0302 }) [] = true := by decide

/-- ADR7 -/
theorem test_ADR7_ldaIndY : gives (start blank [0xB1, 0x40] [(0x0040, 0xF8), (0x0041, 0x04), (0x0508, 0x9A)] (fun s => { s with y := 0x10 }))
    (fun s => { s with a := 0x9A, pc := 0x0302, p := { s.p with n := true } }) [] = true := by decide

/-- ADR8 -/
theorem test_ADR8_ldaIndY : gives (start blank [0xB1, 0xFF] [(0x00FF, 0x10), (0x0000, 0x05), (0x0510, 0x61)] (fun s => { s with y := 0x00 }))
    (fun s => { s with a := 0x61, pc := 0x0302 }) [] = true := by decide

/-- ADR10 -/
theorem test_ADR10_ldaAbs : gives (start blank [0xAD, 0x34, 0x02] [(0x0234, 0x42)] (id))
    (fun s => { s with a := 0x42, pc := 0x0303 }) [] = true := by decide

/-- ADR14 -/
theorem test_ADR14_ldaAbs : gives (start blank [0xAD, 0x00, 0x08] [(0x0000, 0xC4)] (id))
    (fun s => { s with a := 0xC4, pc := 0x0303, p := { s.p with n := true } }) [] = true := by decide

/-- ADR11 -/
theorem test_ADR11_ldaAbsX : gives (start blank [0xBD, 0xF0, 0x02] [(0x0310, 0x99)] (fun s => { s with x := 0x20 }))
    (fun s => { s with a := 0x99, pc := 0x0303, p := { s.p with n := true } }) [] = true := by decide

/-- ADR12 -/
theorem test_ADR12_ldaAbsX : gives (start blank [0xBD, 0xFF, 0xFF] [(0x0000, 0x13)] (fun s => { s with x := 0x01 }))
    (fun s => { s with a := 0x13, pc := 0x0303 }) [] = true := by decide

/-- ADR13 -/
theorem test_ADR13_ldaAbsY : gives (start blank [0xB9, 0x00, 0x04] [(0x04FF, 0x27)] (fun s => { s with y := 0xFF }))
    (fun s => { s with a := 0x27, pc := 0x0303 }) [] = true := by decide

/-- ADR16 -/
theorem test_ADR16_aslAcc : gives (start blank [0x0A] [] (fun s => { s with a := 0x81 }))
    (fun s => { s with a := 0x02, pc := 0x0301, p := { s.p with c := true } }) [] = true := by decide

/-- RMW1 -/
theorem test_RMW1_aslAcc : gives (start blank [0x0A] [] (fun s => { s with a := 0x80 }))
    (fun s => { s with a := 0x00, pc := 0x0301, p := { s.p with c := true, z := true } }) [] = true := by decide

/-- LS1 -/
theorem test_LS1_ldaImm : gives (start blank [0xA9, 0x00] [] (fun s => { s with a := 0x12 }))
    (fun s => { s with a := 0x00, pc := 0x0302, p := { s.p with z := true } }) [] = true := by decide

/-- LS2 -/
theorem test_LS2_ldaImm : gives (start blank [0xA9, 0x80] [] (id))
    (fun s => { s with a := 0x80, pc := 0x0302, p := { s.p with n := true } }) [] = true := by decide

/-- LS3 -/
theorem test_LS3_ldxImm : gives (start blank [0xA2, 0xFF] [] (id))
    (fun s => { s with x := 0xFF, pc := 0x0302, p := { s.p with n := true } }) [] = true := by decide

/-- LS4 -/
theorem test_LS4_ldyImm : gives (start blank [0xA0, 0x01] [] (fun s => { s with p := { s.p with z := true, n := true } }))
    (fun s => { s with y := 0x01, pc := 0x0302, p := { s.p with z := false, n := false } }) [] = true := by decide

/-- LS5 -/
theorem test_LS5_ldxAbs : gives (start blank [0xAE, 0x00, 0x04] [(0x0405, 0x00), (0x0400, 0x80)] (fun s => { s with y := 0x05 }))
    (fun s => { s with x := 0x80, pc := 0x0303, p := { s.p with n := true } }) [] = true := by decide

/-- LS6 -/
theorem test_LS6_ldxAbsY : gives (start blank [0xBE, 0x00, 0x04] [(0x0405, 0x00), (0x0400, 0x80)] (fun s => { s with x := 0x55, y := 0x05 }))
    (fun s => { s with x := 0x00, pc := 0x0303, p := { s.p with z := true } }) [] = true := by decide

/-- LS7 -/
theorem test_LS7_ldyAbsX : gives (start blank [0xBC, 0x10, 0x04] [(0x0411, 0x7F)] (fun s => { s with x := 0x01 }))
    (fun s => { s with y := 0x7F, pc := 0x0303 }) [] = true := by decide

/-- LS8 -/
theorem test_LS8_staZp : gives (start blank [0x85, 0x10] [] (fun s => { s with a := 0x5A, p := { s.p with z := true, n := true } }))
    (fun s => { s with pc := 0x0302 }) [(0x0010, 0x5A)] = true := by decide

/-- LS9 -/
theorem test_LS9_staAbs : gives (start blank [0x8D, 0x10, 0x08] [] (fun s => { s with a := 0x00 }))
    (fun s => { s with pc := 0x0303 }) [(0x0810, 0x00)] = true := by decide

/-- LS10 -/
theorem test_LS10_stxZpY : gives (start blank [0x96, 0xF0] [] (fun s => { s with x := 0x33, y := 0x20 }))
    (fun s => { s with pc := 0x0302 }) [(0x0010, 0x33)] = true := by decide

/-- LS11 -/
theorem test_LS11_styZpX : gives (start blank [0x94, 0xF0] [] (fun s => { s with y := 0x44, x := 0x20 }))
    (fun s => { s with pc := 0x0302 }) [(0x0010, 0x44)] = true := by decide

/-- LS12 -/
theorem test_LS12_staIndY : gives (start blank [0x91, 0x40] [(0x0040, 0xFF), (0x0041, 0x04)] (fun s => { s with a := 0xEE, y := 0x01 }))
    (fun s => { s with pc := 0x0302 }) [(0x0500, 0xEE)] = true := by decide

/-- LS13 -/
theorem test_LS13_staAbsX : gives (start blank [0x9D, 0xFF, 0x04] [] (fun s => { s with a := 0x01, x := 0x01 }))
    (fun s => { s with pc := 0x0303 }) [(0x0500, 0x01)] = true := by decide

/-- ALU1 -/
theorem test_ALU1_oraImm : gives (start blank [0x09, 0x0F] [] (fun s => { s with a := 0xF0 }))
    (fun s => { s with a := 0xFF, pc := 0x0302, p := { s.p with n := true } }) [] = true := by decide

/-- ALU2 -/
theorem test_ALU2_andImm : gives (start blank [0x29, 0x0F] [] (fun s => { s with a := 0xF0 }))
    (fun s => { s with a := 0x00, pc := 0x0302, p := { s.p with z := true } }) [] = true := by decide

/-- ALU3 -/
theorem test_ALU3_eorImm : gives (start blank [0x49, 0xFF] [] (fun s => { s with a := 0xFF }))
    (fun s => { s with a := 0x00, pc := 0x0302, p := { s.p with z := true } }) [] = true := by decide

/-- ALU4 -/
theorem test_ALU4_eorImm : gives (start blank [0x49, 0x80] [] (fun s => { s with a := 0x01 }))
    (fun s => { s with a := 0x81, pc := 0x0302, p := { s.p with n := true } }) [] = true := by decide

/-- ALU7 -/
theorem test_ALU7_adcImm : gives (start blank [0x69, 0x80] [] (fun s => { s with a := 0x80, p := { s.p with c := false } }))
    (fun s => { s with a := 0x00, pc := 0x0302, p := { s.p with c := true, z := true, v := true } }) [] = true := by decide

/-- ALU11 -/
theorem test_ALU11_adcImm : gives (start blank [0x69, 0x01] [] (fun s => { s with a := 0x09, p := { s.p with d := true } }))
    (fun s => { s with a := 0x0A, pc := 0x0302 }) [] = true := by decide

/-- ALU13 -/
theorem test_ALU13_sbcImm : gives (start blank [0xE9, 0xB0] [] (fun s => { s with a := 0x50, p := { s.p with c := true } }))
    (fun s => { s with a := 0xA0, pc := 0x0302, p := { s.p with c := false, v := true, n := true } }) [] = true := by decide

/-- ALU16 -/
theorem test_ALU16_sbcImm : gives (start blank [0xE9, 0x01] [] (fun s => { s with a := 0x80, p := { s.p with c := true } }))
    (fun s => { s with a := 0x7F, pc := 0x0302, p := { s.p with v := true } }) [] = true := by decide

/-- ALU21 -/
theorem test_ALU21_cmpImm : gives (start blank [0xC9, 0x01] [] (fun s => { s with a := 0x00 }))
    (fun s => { s with pc := 0x0302, p := { s.p with n := true } }) [] = true := by decide

/-- ALU22 -/
theorem test_ALU22_cmpImm : gives (start blank [0xC9, 0x7F] [] (fun s => { s with a := 0xFF, p := { s.p with v := true } }))
    (fun s => { s with pc := 0x0302, p := { s.p with c := true, n := true } }) [] = true := by decide

/-- ALU23 -/
theorem test_ALU23_cpxImm : gives (start blank [0xE0, 0x20] [] (fun s => { s with x := 0x10 }))
    (fun s => { s with pc := 0x0302, p := { s.p with n := true } }) [] = true := by decide

/-- ALU24 -/
theorem test_ALU24_cpyImm : gives (start blank [0xC0, 0x05] [] (fun s => { s with y := 0x05 }))
    (fun s => { s with pc := 0x0302, p := { s.p with c := true, z := true } }) [] = true := by decide

/-- ALU25 -/
theorem test_ALU25_bitZp : gives (start blank [0x24, 0x10] [(0x0010, 0xC0)] (fun s => { s with a := 0x01 }))
    (fun s => { s with pc := 0x0302, p := { s.p with z := true, v := true, n := true } }) [] = true := by decide

/-- ALU26 -/
theorem test_ALU26_bitAbs : gives (start blank [0x2C, 0x00, 0x04] [(0x0400, 0x3F)] (fun s => { s with a := 0xFF, p := { s.p with n := true, v := true } }))
    (fun s => { s with pc := 0x0303, p := { s.p with v := false, n := false } }) [] = true := by decide

/-- ALU27 -/
theorem test_ALU27_adcIndY : gives (start blank [0x71, 0x40] [(0x0040, 0xFF), (0x0041, 0x04), (0x0500, 0x02)] (fun s => { s with a := 0x01, y := 0x01, p := { s.p with c := false } }))
    (fun s => { s with a := 0x03, pc := 0x0302 }) [] = true := by decide

/-- RMW2 -/
theorem test_RMW2_lsrAcc : gives (start blank [0x4A] [] (fun s => { s with a := 0x01 }))
    (fun s => { s with a := 0x00, pc := 0x0301, p := { s.p with c := true, z := true } }) [] = true := by decide

/-- RMW3 -/
theorem test_RMW3_rolAcc : gives (start blank [0x2A] [] (fun s => { s with a := 0x80, p := { s.p with c := false } }))
    (fun s => { s with a := 0x00, pc := 0x0301, p := { s.p with c := true, z := true } }) [] = true := by decide

/-- RMW4 -/
theorem test_RMW4_rolAcc : gives (start blank [0x2A] [] (fun s => { s with a := 0x00, p := { s.p with c := true } }))
    (fun s => { s with a := 0x01, pc := 0x0301, p := { s.p with c := false } }) [] = true := by decide

/-- RMW5 -/
theorem test_RMW5_rorAcc : gives (start blank [0x6A] [] (fun s => { s with a := 0x01, p := { s.p with c := true } }))
    (fun s => { s with a := 0x80, pc := 0x0301, p := { s.p with n := true } }) [] = true := by decide

/-- RMW6 -/
theorem test_RMW6_rorAcc : gives (start blank [0x6A] [] (fun s => { s with a := 0x02, p := { s.p with c := false } }))
    (fun s => { s with a := 0x01, pc := 0x0301 }) [] = true := by decide

/-- RMW7 -/
theorem test_RMW7_aslZp : gives (start blank [0x06, 0x10] [(0x0010, 0x41)] (id))
    (fun s => { s with pc := 0x0302, p := { s.p with n := true } }) [(0x0010, 0x82)] = true := by decide

/-- RMW8 -/
theorem test_RMW8_lsrZp : gives (start blank [0x46, 0x10] [(0x0010, 0x80)] (id))
    (fun s => { s with pc := 0x0302 }) [(0x0010, 0x40)] = true := by decide

/-- RMW9 -/
theorem test_RMW9_rolZp : gives (start blank [0x26, 0x10] [(0x0010, 0x7F)] (fun s => { s with p := { s.p with c := true } }))
    (fun s => { s with pc := 0x0302, p := { s.p with c := false, n := true } }) [(0x0010, 0xFF)] = true := by decide

/-- RMW10 -/
theorem test_RMW10_rorZp : gives (start blank [0x66, 0x10] [(0x0010, 0x01)] (fun s => { s with p := { s.p with c := false } }))
    (fun s => { s with pc := 0x0302, p := { s.p with c := true, z := true } }) [(0x0010, 0x00)] = true := by decide

/-- RMW11 -/
theorem test_RMW11_incZp : gives (start blank [0xE6, 0x10] [(0x0010, 0xFF)] (id))
    (fun s => { s with pc := 0x0302, p := { s.p with z := true } }) [(0x0010, 0x00)] = true := by decide

/-- RMW12 -/
theorem test_RMW12_decZp : gives (start blank [0xC6, 0x10] [(0x0010, 0x00)] (id))
    (fun s => { s with pc := 0x0302, p := { s.p with n := true } }) [(0x0010, 0xFF)] = true := by decide

/-- RMW13 -/
theorem test_RMW13_incAbsX : gives (start blank [0xFE, 0xFF, 0x04] [(0x0500, 0x7F)] (fun s => { s with x := 0x01 }))
    (fun s => { s with pc := 0x0303, p := { s.p with n := true } }) [(0x0500, 0x80)] = true := by decide

/-- RMW14 -/
theorem test_RMW14_decZpX : gives (start blank [0xD6, 0xFF] [(0x0001, 0x01)] (fun s => { s with x := 0x02 }))
    (fun s => { s with pc := 0x0302, p := { s.p with z := true } }) [(0x0001, 0x00)] = true := by decide

/-- RMW15 -/
theorem test_RMW15_inx : gives (start blank [0xE8] [] (fun s => { s with x := 0xFF }))
    (fun s => { s with x := 0x00, pc := 0x0301, p := { s.p with z := true } }) [] = true := by decide

/-- RMW16 -/
theorem test_RMW16_iny : gives (start blank [0xC8] [] (fun s => { s with y := 0x7F }))
    (fun s => { s with y := 0x80, pc := 0x0301, p := { s.p with n := true } }) [] = true := by decide

/-- RMW17 -/
theorem test_RMW17_dex : gives (start blank [0xCA] [] (fun s => { s with x := 0x01 }))
    (fun s => { s with x := 0x00, pc := 0x0301, p := { s.p with z := true } }) [] = true := by decide

/-- RMW18 -/
theorem test_RMW18_dey : gives (start blank [0x88] [] (fun s => { s with y := 0x00 }))
    (fun s => { s with y := 0xFF, pc := 0x0301, p := { s.p with n := true } }) [] = true := by decide

/-- CTL1 -/
theorem test_CTL1_jmpAbs : gives (start blank [0x4C, 0x34, 0x12] [] (id))
    (fun s => { s with pc := 0x1234 }) [] = true := by decide

/-- CTL2 -/
theorem test_CTL2_jmpInd : gives (start blank [0x6C, 0xFF, 0x02] [(0x02FF, 0x00), (0x0200, 0x12)] (id))
    (fun s => { s with pc := 0x1200 }) [] = true := by decide

/-- CTL3 -/
theorem test_CTL3_jmpInd : gives (start blank [0x6C, 0x00, 0x04] [(0x0400, 0x00), (0x0401, 0x05)] (id))
    (fun s => { s with pc := 0x0500 }) [] = true := by decide

/-- CTL4 -/
theorem test_CTL4_jsr : gives (start blank [0x20, 0x00, 0x05] [] (fun s => { s with sp := 0xFD }))
    (fun s => { s with sp := 0xFB, pc := 0x0500 }) [(0x01FD, 0x03), (0x01FC, 0x02)] = true := by decide

/-- CTL5 -/
theorem test_CTL5_rts : gives (start blank [0x60] [(0x01FC, 0x02), (0x01FD, 0x03)] (fun s => { s with sp := 0xFB }))
    (fun s => { s with sp := 0xFD, pc := 0x0303 }) [] = true := by decide

/-- CTL6 -/
theorem test_CTL6_rts : gives (start blank [0x60] [(0x0100, 0xFF), (0x0101, 0xFF)] (fun s => { s with sp := 0xFF }))
    (fun s => { s with sp := 0x01, pc := 0x0000 }) [] = true := by decide

/-- CTL7 -/
theorem test_CTL7_rti : gives (start blank [0x40] [(0x01FB, 0xC3), (0x01FC, 0x34), (0x01FD, 0x12)] (fun s => { s with sp := 0xFA, p := { s.p with i := true } }))
    (fun s => { s with sp := 0xFD, pc := 0x1234, p := { s.p with c := true, z := true, i := false, v := true, n := true } }) [] = true := by decide

/-- CTL8 -/
theorem test_CTL8_rti : gives (start blank [0x40] [(0x01FB, 0x30), (0x01FC, 0x02), (0x01FD, 0x80)] (fun s => { s with sp := 0xFA }))
    (fun s => { s with sp := 0xFD, pc := 0x8002 }) [] = true := by decide

/-- CTL9 -/
theorem test_CTL9_brk : gives (start withVector [0x00, 0xEA] [] (fun s => { s with sp := 0xFD, p := { s.p with c := true, n := true } }))
    (fun s => { s with sp := 0xFA, pc := 0x9000, p := { s.p with i := true } }) [(0x01FD, 0x03), (0x01FC, 0x02), (0x01FB, 0xB1)] = true := by decide

/-- CTL10 -/
theorem test_CTL10_brk : gives (start withVector [0x00] [] (fun s => { s with sp := 0x01, p := { s.p with i := true } }))
    (fun s => { s with sp := 0xFE, pc := 0x9000 }) [(0x0101, 0x03), (0x0100, 0x02), (0x01FF, 0x34)] = true := by decide

/-- CTL11 -/
theorem test_CTL11_bpl : gives (start blank [0x10, 0x04] [] (fun s => { s with p := { s.p with n := false } }))
    (fun s => { s with pc := 0x0306 }) [] = true := by decide

/-- CTL12 -/
theorem test_CTL12_bpl : gives (start blank [0x10, 0x04] [] (fun s => { s with p := { s.p with n := true } }))
    (fun s => { s with pc := 0x0302 }) [] = true := by decide

/-- CTL13 -/
theorem test_CTL13_bmi : gives (start blank [0x30, 0xFC] [] (fun s => { s with p := { s.p with n := true } }))
    (fun s => { s with pc := 0x02FE }) [] = true := by decide

/-- CTL14 -/
theorem test_CTL14_bvc : gives (start blank [0x50, 0x7F] [] (fun s => { s with p := { s.p with v := false } }))
    (fun s => { s with pc := 0x0381 }) [] = true := by decide

/-- CTL15 -/
theorem test_CTL15_bvs : gives (start blank [0x70, 0x80] [] (fun s => { s with p := { s.p with v := true } }))
    (fun s => { s with pc := 0x0282 }) [] = true := by decide

/-- CTL16 -/
theorem test_CTL16_bvs : gives (start blank [0x70, 0x80] [] (fun s => { s with p := { s.p with v := false } }))
    (fun s => { s with pc := 0x0302 }) [] = true := by decide

/-- CTL17 -/
theorem test_CTL17_bcc : gives (start blank [0x90, 0xFE] [] (fun s => { s with p := { s.p with c := false } }))
    (fun s => { s with pc := 0x0300 }) [] = true := by decide

/-- CTL18 -/
theorem test_CTL18_bcs : gives (start blank [0xB0, 0xFE] [] (fun s => { s with p := { s.p with c := false } }))
    (fun s => { s with pc := 0x0302 }) [] = true := by decide

/-- CTL19 -/
theorem test_CTL19_bne : gives (start blank [0xD0, 0x00] [] (fun s => { s with p := { s.p with z := false } }))
    (fun s => { s with pc := 0x0302 }) [] = true := by decide

/-- CTL22 -/
theorem test_CTL22_bne : gives (start blank [0xD0, 0xFD] [] (fun s => { s with p := { s.p with z := false } }))
    (fun s => { s with pc := 0x02FF }) [] = true := by decide

/-- CTL20 -/
theorem test_CTL20_beq : gives (start blank [0xF0, 0xFE] [] (fun s => { s with p := { s.p with z := true } }))
    (fun s => { s with pc := 0x0300 }) [] = true := by decide

/-- STK1 -/
theorem test_STK1_pha : gives (start blank [0x48] [] (fun s => { s with a := 0x77, sp := 0xFD }))
    (fun s => { s with sp := 0xFC, pc := 0x0301 }) [(0x01FD, 0x77)] = true := by decide

/-- STK2 -/
theorem test_STK2_pha : gives (start blank [0x48] [] (fun s => { s with a := 0x77, sp := 0x00 }))
    (fun s => { s with sp := 0xFF, pc := 0x0301 }) [(0x0100, 0x77)] = true := by decide

/-- STK3 -/
theorem test_STK3_pla : gives (start blank [0x68] [(0x0100, 0x80)] (fun s => { s with sp := 0xFF }))
    (fun s => { s with a := 0x80, sp := 0x00, pc := 0x0301, p := { s.p with n := true } }) [] = true := by decide

/-- STK4 -/
theorem test_STK4_pla : gives (start blank [0x68] [(0x01FD, 0x00)] (fun s => { s with sp := 0xFC, p := { s.p with z := false } }))
    (fun s => { s with sp := 0xFD, pc := 0x0301, p := { s.p with z := true } }) [] = true := by decide

/-- STK5 -/
theorem test_STK5_php : gives (start blank [0x08] [] (fun s => { s with sp := 0xFD, p := { s.p with c := true, z := true } }))
    (fun s => { s with sp := 0xFC, pc := 0x0301 }) [(0x01FD, 0x33)] = true := by decide

/-- STK6 -/
theorem test_STK6_php : gives (start blank [0x08] [] (fun s => { s with sp := 0xFD, p := { s.p with n := true, v := true, d := true, i := true, z := true, c := true } }))
    (fun s => { s with sp := 0xFC, pc := 0x0301 }) [(0x01FD, 0xFF)] = true := by decide

/-- STK7 -/
theorem test_STK7_plp : gives (start blank [0x28] [(0x01FD, 0xFF)] (fun s => { s with sp := 0xFC }))
    (fun s => { s with sp := 0xFD, pc := 0x0301, p := { s.p with c := true, z := true, i := true, d := true, v := true, n := true } }) [] = true := by decide

/-- STK8 -/
theorem test_STK8_plp : gives (start blank [0x28] [(0x01FD, 0x30)] (fun s => { s with sp := 0xFC, p := { s.p with n := true, v := true, d := true, i := true, z := true, c := true } }))
    (fun s => { s with sp := 0xFD, pc := 0x0301, p := { s.p with c := false, z := false, i := false, d := false, v := false, n := false } }) [] = true := by decide

/-- STK9 -/
theorem test_STK9_tax : gives (start blank [0xAA] [] (fun s => { s with a := 0x80 }))
    (fun s => { s with x := 0x80, pc := 0x0301, p := { s.p with n := true } }) [] = true := by decide

/-- STK10 -/
theorem test_STK10_txa : gives (start blank [0x8A] [] (fun s => { s with x := 0x00, a := 0x55 }))
    (fun s => { s with a := 0x00, pc := 0x0301, p := { s.p with z := true } }) [] = true := by decide

/-- STK11 -/
theorem test_STK11_tay : gives (start blank [0xA8] [] (fun s => { s with a := 0x01, p := { s.p with z := true } }))
    (fun s => { s with y := 0x01, pc := 0x0301, p := { s.p with z := false } }) [] = true := by decide

/-- STK12 -/
theorem test_STK12_tya : gives (start blank [0x98] [] (fun s => { s with y := 0xFF }))
    (fun s => { s with a := 0xFF, pc := 0x0301, p := { s.p with n := true } }) [] = true := by decide

/-- STK13 -/
theorem test_STK13_tsx : gives (start blank [0xBA] [] (fun s => { s with sp := 0x00 }))
    (fun s => { s with pc := 0x0301, p := { s.p with z := true } }) [] = true := by decide

/-- STK14 -/
theorem test_STK14_tsx : gives (start blank [0xBA] [] (fun s => { s with sp := 0xFD }))
    (fun s => { s with x := 0xFD, pc := 0x0301, p := { s.p with n := true } }) [] = true := by decide

/-- STK15 -/
theorem test_STK15_txs : gives (start blank [0x9A] [] (fun s => { s with x := 0x00, p := { s.p with z := false, n := true } }))
    (fun s => { s with sp := 0x00, pc := 0x0301 }) [] = true := by decide

/-- STK16 -/
theorem test_STK16_clc : gives (start blank [0x18] [] (fun s => { s with p := { s.p with c := true } }))
    (fun s => { s with pc := 0x0301, p := { s.p with c := false } }) [] = true := by decide

/-- STK17 -/
theorem test_STK17_sec : gives (start blank [0x38] [] (id))
    (fun s => { s with pc := 0x0301, p := { s.p with c := true } }) [] = true := by decide

/-- STK18 -/
theorem test_STK18_cli : gives (start blank [0x58] [] (fun s => { s with p := { s.p with i := true } }))
    (fun s => { s with pc := 0x0301, p := { s.p with i := false } }) [] = true := by decide

/-- STK19 -/
theorem test_STK19_sei : gives (start blank [0x78] [] (id))
    (fun s => { s with pc := 0x0301, p := { s.p with i := true } }) [] = true := by decide

/-- STK20 -/
theorem test_STK20_clv : gives (start blank [0xB8] [] (fun s => { s with p := { s.p with v := true } }))
    (fun s => { s with pc := 0x0301, p := { s.p with v := false } }) [] = true := by decide

/-- STK21 -/
theorem test_STK21_cld : gives (start blank [0xD8] [] (fun s => { s with p := { s.p with d := true } }))
    (fun s => { s with pc := 0x0301, p := { s.p with d := false } }) [] = true := by decide

/-- STK22 -/
theorem test_STK22_sed : gives (start blank [0xF8] [] (id))
    (fun s => { s with pc := 0x0301, p := { s.p with d := true } }) [] = true := by decide

/-- STK23 -/
theorem test_STK23_nop : gives (start blank [0xEA] [] (fun s => { s with a := 0x12, x := 0x34, y := 0x56, sp := 0x78, p := { s.p with c := true, z := true, n := true } }))
    (fun s => { s with pc := 0x0301 }) [] = true := by decide

/-- BUS3: the pointer's high byte comes from 0x0000. -/
theorem test_BUS3_ldaIndX : after (start blank [0xA1, 0xFE] [(0x00FF, 0x00), (0x0000, 0x04), (0x0400, 0x77)]
    (fun s => { s with x := 0x01 })) (fun t => t.bus == [.read 0x0300 0xA1, .read 0x0301 0xFE, .read 0x00FF 0x00,
      .read 0x0000 0x04, .read 0x0400 0x77]) = true := by decide

/-- BUS2: one read and one write of the location, none of the uncarried address. -/
theorem test_BUS2_incAbsX : after (start blank [0xFE, 0xFF, 0x04] [(0x0500, 0x7F)] (fun s => { s with x := 0x01 }))
    (fun t => t.bus == [.read 0x0300 0xFE, .read 0x0301 0xFF, .read 0x0302 0x04, .read 0x0500 0x7F,
      .write 0x0500 0x80]) = true := by decide

/-- EXC1, BUS11 and F1: an illegal opcode is fetched, latched, and returned again. -/
theorem test_EXC1_illegal : after (start blank [0x02, 0x10, 0x00] [] (fun s => { s with a := 0x11, sp := 0xFD }))
    (fun t => decide (t.fault = some (.illegalOpcode 0x02 0x0300) ∧ t.pc = 0x0300 ∧ t.a = 0x11 ∧
      t.bus = [.read 0x0300 0x02]) && match step t with
        | .fault f => f == .illegalOpcode 0x02 0x0300
        | _ => false) = true := by decide

/-- F2: reset from the cartridge's vector. -/
theorem test_F2_reset : (resetRequest { withVector with a := 0x11, fault := some (.illegalOpcode 0x02 0x0300) }).pc = 0x8000 ∧
    (resetRequest { withVector with a := 0x11, fault := some (.illegalOpcode 0x02 0x0300) }).fault = none ∧
    (resetRequest withVector).sp = 0xFD ∧ (resetRequest withVector).p.i = true ∧
    (resetRequest withVector).bus = [.read 0xFFFC 0x00, .read 0xFFFD 0x80] := by decide

/-- F3: the vector of a 16 KiB image. -/
theorem test_F3_reset : (powerOn { nrom with prgRomSize := .kib16, prgRom := [(0x3FFD, 0xC0)] }).pc = 0xC000 := by decide

/-- F5: the strict policy with no cartridge. -/
theorem test_F5_reset : (powerOn { Config.standard with strictUnmapped := true }).fault =
      some (.unmappedMemoryAccess 0xFFFC .read) ∧
    (powerOn { Config.standard with strictUnmapped := true }).sp = 0xFD := by decide

/-- A strict cartridge with LDA $5000 at 0x8000. -/
def strictCart : State :=
  { blank with
    a := 0x11
    pc := 0x8000
    cfg := { nrom with strictUnmapped := true, prgRom := [(0x0000, 0xAD), (0x0002, 0x50)] } }

/-- F6: the access is not performed and is latched. -/
theorem test_F6_strict : after strictCart (fun t => decide (t.fault = some (.unmappedMemoryAccess 0x5000 .read) ∧
    t.a = 0x11 ∧ t.pc = 0x8000 ∧ t.bus = [.read 0x8000 0xAD, .read 0x8001 0x00, .read 0x8002 0x50])) = true := by
  decide +kernel

/-- F7: without the strict policy the same load reads 0. -/
theorem test_F7_default : gives { strictCart with cfg := { strictCart.cfg with strictUnmapped := false } }
    (fun s => { s with a := 0x00, pc := 0x8003, p := { s.p with z := true } }) [] = true := by decide +kernel

/-- F8: PRG ROM ignores a write. -/
theorem test_F8_prgRom : after (start withVector [0x8D, 0xFD, 0xFF] [] (fun s => { s with a := 0xFF }))
    (fun t => peek t 0xFFFD == some 0x80) = true := by decide +kernel

/-- F9: 2 KiB of PRG RAM are mirrored. -/
theorem test_F9_prgRam : after (start withVector [0x8D, 0x00, 0x68] [] (fun s => { s with a := 0x3C }))
    (fun t => t.prgRam == [(0x000, 0x3C)] && peek t 0x6000 == some 0x3C) = true := by decide +kernel

/-- F10: register 7 of the picture unit receives the byte. -/
theorem test_F10_picture : after (start blank [0x8D, 0x0F, 0x3F] [] (fun s => { s with a := 0x42 }))
    (fun t => t.deliveries == [.given (.picture 7) 0x42] && t.draws == 0) = true := by decide

/-- F11: register 0x16 of the audio/IO unit receives the byte. -/
theorem test_F11_audioIo : after (start blank [0x8D, 0x16, 0x40] [] (fun s => { s with a := 0x01 }))
    (fun t => t.deliveries == [.given (.audioIo 0x16) 0x01]) = true := by decide

/-- A read of a device uses one answer of the device. -/
theorem test_device_read : after (start blank [0xAD, 0x02, 0x20] [] id)
    (fun t => t.deliveries == [.asked (.picture 2)] && t.draws == 1) = true := by decide

/-- The state of X1 to X3: the extension present, PC 0x8123, S 0xFD, `irq` active. -/
def irqActive : State :=
  { withVector with cfg := { nrom with hasIrqNmi := true }, pc := 0x8123, sp := 0xFD, irq := true }

/-- X1: an IRQ. -/
theorem test_X1_irq : gives irqActive (fun s => { s with sp := 0xFA, pc := 0x9000, p := { s.p with i := true } })
    [(0x01FD, 0x81), (0x01FC, 0x23), (0x01FB, 0x20)] = true := by decide

/-- X2: masked by I; the instruction at 0x8123, BRK, runs. -/
theorem test_X2_masked : acceptedInterrupt { irqActive with p := { irqActive.p with i := true } } = none := by decide

/-- X3: an NMI edge wins over IRQ and I. -/
theorem test_X3_nmi : gives (driveNmi true { irqActive with p := { irqActive.p with i := true } })
    (fun s => { s with sp := 0xFA, pc := 0xA000 }) [(0x01FD, 0x81), (0x01FC, 0x23), (0x01FB, 0x24)] = true := by decide

/-- An instruction placed by `withFetchWord` is the next one fetched. -/
theorem test_withFetchWord : after (State.reset.withFetchWord 16 0x2AA9) (fun t => t.a == 0x2A) = true := by decide

/-! ### Witnesses: for each statement with hypotheses, inputs that meet them, clause by clause -/

theorem witness_EncodeOfDecode : decode [0x4C, 0x34, 0x12, 0xFF] = .ok (.jmpAbs 0x1234, [0xFF]) := by decide

theorem witness_IllegalOpcodesOfTable : operandCount 0x89 = none ∧ operandCount 0x03 = none ∧ operandCount 0xFF = none := by
  decide

theorem witness_ModeMatchesEncoding : instrMode (.ldaIndY 0x40) = some (.indirectIndexedY 0x40) ∧
    instrMode .rts = none := by decide

/-- Both ends of the RAM window and of the first two pages. -/
theorem witness_InternalRamIsMirrored : (0x0000 : Addr) < 0x2000 ∧ (0x1FFF : Addr) < 0x2000 ∧ (0x01FF : Addr) < 0x0200 := by
  decide

/-- Both ends of each device window. -/
theorem witness_DeviceWindowsReachDevices : (0x2000 : Addr) ≤ 0x2000 ∧ (0x3FFF : Addr) < 0x4000 ∧
    (0x4000 : Addr) ≤ 0x4000 ∧ (0x401F : Addr) < 0x4020 := by decide

/-- No cartridge; NROM below 0x6000, at both ends of PRG RAM, and in PRG ROM. -/
theorem witness_CartridgeSpaceIsNrom : blank.cfg.strictUnmapped = false ∧ blank.cfg.cartPresent = false ∧
    withVector.cfg.strictUnmapped = false ∧ withVector.cfg.cartPresent = true ∧ (0x4020 : Addr) ≤ 0x4020 ∧
    (0x5FFF : Addr) < 0x6000 ∧ (0x6000 : Addr) ≤ 0x6000 ∧ (0x7FFF : Addr) < 0x8000 ∧ (0x8000 : Addr) ≤ 0x8000 ∧
    ({ nrom with prgRomSize := .kib16 } : Config).prgRomSize = .kib16 ∧ (0xC000 : Addr) ≤ 0xFFFF ∧
    strictCart.cfg.strictUnmapped = true ∧ strictCart.cfg.cartPresent = true := by decide

/-- `blank` under the strict policy, with no cartridge. -/
def strict : State := { blank with cfg := { Config.standard with strictUnmapped := true } }

/-- Unclaimed and claimed addresses where the clauses meet. -/
theorem witness_StrictPolicyRaises : claimed strict.cfg 0x4020 = false ∧ claimed strict.cfg 0x401F = true ∧
    claimed strictCart.cfg 0x4020 = false ∧ claimed strictCart.cfg 0x5FFF = false ∧
    claimed strictCart.cfg 0x6000 = true ∧ claimed blank.cfg 0xFFFF = true := by decide

/-- A write to RAM seen at its mirror, one to PRG RAM, one to PRG ROM, and one to another cell. -/
theorem witness_WrittenByteReadsBack : (∃ t, memWrite 0x0000 0x55 blank = .ok () t) ∧
    (∃ t, memWrite 0x6000 0x55 withVector = .ok () t) ∧ (∃ t, memWrite 0xFFFF 0x55 withVector = .ok () t) ∧
    route blank.cfg 0x0800 = route blank.cfg 0x0000 ∧ route blank.cfg 0x0001 ≠ route blank.cfg 0x0000 ∧
    route nrom 0x6800 = route nrom 0x6000 ∧ route nrom 0x6000 = .prgRam 0 :=
  ⟨⟨_, rfl⟩, ⟨_, rfl⟩, ⟨_, rfl⟩, by decide, by decide, by decide, by decide⟩

theorem witness_TwoByteReads : claimed blank.cfg 0xFFFF = true ∧ claimed blank.cfg (0xFFFF + 1) = true := by decide

theorem witness_StackEngine : blank.sp = 0x00 ∧ ({ blank with sp := 0xFF } : State).sp = 0xFF := by decide

theorem witness_ReadingAndWritingLocations : instrMode (.cpyImm 0xFF) = some (.immediate 0xFF) := by decide

/-- Whether each instruction has the mnemonic and a mode whose location is claimed, under the strict policy. -/
def operandsClaimed (s : State) (l : List (Instr × Mnemonic)) : Bool :=
  l.all fun c => c.1.mnemonic == c.2 &&
    match instrMode c.1 with
    | some m => operandClaimed m s
    | none => false

theorem witness_LoadsReadTheirOperand : operandsClaimed strictCart [(.ldaAbs 0x6000, .lda), (.ldaImm 0x00, .lda),
    (.ldxZpY 0xFF, .ldx), (.ldyAbsX 0x401F, .ldy)] = true := by decide

theorem witness_StoresWriteTheirRegister : operandsClaimed strictCart [(.staIndY 0xFF, .sta), (.stxAbs 0x6000, .stx),
    (.styZpX 0xFF, .sty)] = true := by decide

theorem witness_LogicalOperations : operandsClaimed strictCart [(.oraIndX 0xFF, .ora), (.andAbsY 0xFFFF, .and),
    (.eorImm 0x80, .eor)] = true := by decide

theorem witness_AddWithCarry : operandsClaimed strictCart [(.adcImm 0xFF, .adc), (.adcAbs 0x6000, .adc)] = true := by decide

theorem witness_SubtractWithBorrow : operandsClaimed strictCart [(.sbcImm 0x00, .sbc), (.sbcAbs 0x401F, .sbc)] = true := by
  decide

theorem witness_Compares : operandsClaimed strictCart [(.cmpImm 0x7F, .cmp), (.cpxZp 0x00, .cpx), (.cpyAbs 0x6000, .cpy)] =
    true := by decide

theorem witness_BitTest : operandsClaimed strictCart [(.bitZp 0x10, .bit), (.bitAbs 0x6000, .bit)] = true := by decide

theorem witness_ShiftsAndRotates : operandsClaimed strictCart [(.aslAcc, .asl), (.lsrAbs 0x6000, .lsr), (.rolZp 0x00, .rol),
    (.rorAbsX 0xFFFF, .ror)] = true ∧ modeLoc (.absolute 0x6000) strictCart = .mem 0x6000 := by decide

theorem witness_IncrementAndDecrementMemory : operandsClaimed strictCart [(.incZp 0xFF, .inc), (.decAbs 0x6000, .dec)] =
    true ∧ modeLoc (.zeroPage 0xFF) strictCart = .mem 0x00FF := by decide

/-- A pointer whose low byte is 0xFF, and one whose low byte is not. -/
theorem witness_JumpIndirect : lowByte 0x02FF = 0xFF ∧ claimed strict.cfg 0x02FF = true ∧
    claimed strict.cfg (0x02FF - 0xFF) = true ∧ lowByte 0x0400 ≠ 0xFF ∧ claimed strict.cfg 0x0400 = true ∧
    claimed strict.cfg (0x0400 + 1) = true := by decide

/-- A vector in PRG ROM, and no cartridge under each policy. -/
theorem witness_BreakEntersHandler : peek withVector 0xFFFE = some 0x00 ∧ peek withVector 0xFFFF = some 0x90 ∧
    blank.cfg.cartPresent = false ∧ blank.cfg.strictUnmapped = false ∧ strict.cfg.cartPresent = false ∧
    strict.cfg.strictUnmapped = true := by decide +kernel

/-- BIT of 0x40 sets V. -/
theorem witness_FlagInstructions : (∃ t, exec (.bitZp 0x10) (start blank [] [(0x10, 0x40)] id) = .next t ∧
      (start blank [] [(0x10, 0x40)] id).p.v = false ∧ t.p.v = true) ∧
    ∃ t, exec .sed strictCart = .next t ∧
      operandsClaimed t [(.adcImm 0x19, .adc), (.adcAbs 0x6000, .adc), (.sbcImm 0x19, .sbc), (.sbcAbs 0x401F, .sbc)] = true :=
  ⟨⟨_, rfl, by decide, by decide⟩, _, rfl, by decide⟩

/-- `blank` with one opcode byte at PC. -/
def at0300 (op : Byte) : State := start blank [op] [] id

theorem witness_NoOperation : Running (at0300 0xEA) ∧ acceptedInterrupt (at0300 0xEA) = none ∧
    peek (at0300 0xEA) (at0300 0xEA).pc = some 0xEA := ⟨rfl, by decide, by decide⟩

/-- A load, a store and an increment of an unclaimed address; a jump pointer unclaimed in its first and in its second
byte. -/
theorem witness_UnclaimedAccessTraps : instrMode (.ldaAbs 0x5FFF) = some (.absolute 0x5FFF) ∧
    instrMode (.staAbs 0x5FFF) = some (.absolute 0x5FFF) ∧ instrMode (.incAbs 0x5FFF) = some (.absolute 0x5FFF) ∧
    modeLoc (.absolute 0x5FFF) strictCart = .mem 0x5FFF ∧ claimed strictCart.cfg 0x5FFF = false ∧
    claimed strict.cfg 0x4020 = false ∧ claimed strict.cfg 0x401F = true ∧
    claimed strict.cfg (joinBytes (highByte 0x401F) (lowByte 0x401F + 1)) = false := by decide

theorem witness_IllegalOpcodeIsLatched : Running (at0300 0x02) ∧ acceptedInterrupt (at0300 0x02) = none ∧
    claimed (at0300 0x02).cfg (at0300 0x02).pc = true ∧ operandCount (answer (at0300 0x02) (at0300 0x02).pc) = none :=
  ⟨rfl, by decide, by decide, by decide⟩

/-- PC unclaimed, and PC at the last and at the last but one claimed address before an unclaimed one. -/
theorem witness_UnclaimedFetchIsLatched : Running strict ∧ acceptedInterrupt { strict with pc := 0x5000 } = none ∧
    claimed strict.cfg 0x5000 = false ∧ claimed strict.cfg 0x401F = true ∧ claimed strict.cfg (0x401F + 1) = false ∧
    claimed strict.cfg 0x401E = true ∧ claimed strict.cfg (0x401E + 1) = true ∧ claimed strict.cfg (0x401E + 2) = false ∧
    acceptedInterrupt { strict with pc := 0x401E } = none :=
  ⟨rfl, by decide, by decide, by decide, by decide, by decide, by decide, by decide, by decide⟩

/-- A full latch, and a state whose reset vector is claimed. -/
theorem witness_LatchedFaultIsTerminal : ({ blank with fault := some (.illegalOpcode 0x02 0x0300) } : State).fault =
    some (.illegalOpcode 0x02 0x0300) ∧ claimed blank.cfg 0xFFFC = true := by decide

/-- A step that latches an illegal opcode, one that takes an interrupt whose vector is unclaimed, and BRK with its vector
unclaimed. -/
theorem witness_FaultsArePrecise : (∃ u, step (at0300 0x02) = .next u ∧ u.fault ≠ none) ∧
    (∃ u, step { strict with nmiPending := true, cfg := { strict.cfg with hasIrqNmi := true } } = .next u ∧
      u.fault ≠ none ∧ ¬SameMemory strict u) ∧
    (∃ u, step strict = .next u ∧ u.fault ≠ none) :=
  ⟨⟨_, rfl, by decide⟩, ⟨_, rfl, by decide, fun h => absurd (h 0x0100) (by decide)⟩, ⟨_, rfl, by decide⟩⟩

/-- Both cases of the conclusion: a clear latch, and an illegal opcode. -/
theorem witness_DefaultPolicyOnlyIllegalOpcode : blank.cfg.strictUnmapped = false ∧
    (∃ u, step (at0300 0xEA) = .next u ∧ u.fault = none) ∧
    (∃ u, step (at0300 0x02) = .next u ∧ u.fault = some (.illegalOpcode 0x02 0x0300)) :=
  ⟨rfl, ⟨_, rfl, by decide⟩, ⟨_, rfl, by decide⟩⟩

/-- Without and with an unclaimed operand. -/
theorem witness_FrameOfLoadsAndArithmetic : (∃ t, exec (.adcZp 0x10) blank = .next t) ∧
    (∃ t, exec (.ldaAbs 0x5FFF) strictCart = .next t) ∧ instrMode (.adcZp 0x10) = some (.zeroPage 0x10) ∧
    operandClaimed (.zeroPage 0x10) blank = true := ⟨⟨_, rfl⟩, ⟨_, rfl⟩, by decide, by decide⟩

/-- A claimed destination through a pointer, and an unclaimed one. -/
theorem witness_FrameOfStores : instrMode (.staIndY 0xFF) = some (.indirectIndexedY 0xFF) ∧
    (∃ t, exec (.staIndY 0xFF) blank = .next t) ∧ (∃ u, resolve (.indirectIndexedY 0xFF) blank = .ok (.mem 0x0000) u) ∧
    (∃ t, exec (.staAbs 0x5FFF) strictCart = .next t) ∧ (∃ u, resolve (.absolute 0x5FFF) strictCart = .ok (.mem 0x5FFF) u) ∧
    route blank.cfg 0x0001 ≠ route blank.cfg 0x0000 :=
  ⟨by decide, ⟨_, rfl⟩, ⟨_, rfl⟩, ⟨_, rfl⟩, ⟨_, rfl⟩, by decide⟩

/-- A memory location and the accumulator. -/
theorem witness_FrameOfReadModifyWrite : (∃ t, exec (.incZp 0xFF) blank = .next t) ∧
    (∃ u, resolve (.zeroPage 0xFF) blank = .ok (.mem 0x00FF) u) ∧ (∃ t, exec .aslAcc blank = .next t) ∧
    (∃ u, resolve .accumulator blank = .ok .acc u) ∧ instrMode (.incZp 0xFF) = some (.zeroPage 0xFF) ∧
    instrMode .aslAcc = some .accumulator := ⟨⟨_, rfl⟩, ⟨_, rfl⟩, ⟨_, rfl⟩, ⟨_, rfl⟩, by decide, by decide⟩

/-- Each of the eight; and a cell outside the three a BRK pushes to. -/
theorem witness_FrameOfStackInstructions : ([.pha, .php, .pla, .plp, .jsr 0x0500, .rts, .rti, .brk] : List Instr).all
    (fun i => match exec i withVector with
      | .next _ => true
      | _ => false) = true ∧
    route withVector.cfg 0x01FD ≠ route withVector.cfg (stackAddr withVector.sp) ∧
    route withVector.cfg 0x01FD ≠ route withVector.cfg (stackAddr (withVector.sp - 1)) ∧
    route withVector.cfg 0x01FD ≠ route withVector.cfg (stackAddr (withVector.sp - 2)) := by decide +kernel

theorem witness_FrameOfRegisterInstructions : (∃ t, exec .tax blank = .next t) ∧ (∃ t, exec (.bpl 0xFE) blank = .next t) ∧
    (∃ t, exec (.jmpAbs 0x1234) blank = .next t) ∧ (∃ t, exec (.jmpInd 0x02FF) blank = .next t) ∧
    (Instr.tax).form = .implied ∧ (Instr.bpl 0xFE).form = .relative :=
  ⟨⟨_, rfl⟩, ⟨_, rfl⟩, ⟨_, rfl⟩, ⟨_, rfl⟩, rfl, rfl⟩

/-- Code in RAM, and the last byte of an instruction read from 0xFFFF, where no cartridge answers 0. -/
theorem witness_StepRunsDecodedInstruction : Running (start blank [0xA9, 0x2A] [] id) ∧
    acceptedInterrupt (start blank [0xA9, 0x2A] [] id) = none ∧ decode [0xA9, 0x2A] = .ok (.ldaImm 0x2A, []) ∧
    HoldsAt [0xA9, 0x2A] 0x0300 (start blank [0xA9, 0x2A] [] id) ∧ decode [0x00] = .ok (.brk, []) ∧
    HoldsAt [0x00] 0xFFFF { blank with pc := 0xFFFF } :=
  ⟨rfl, by decide, by decide, ⟨by decide, by decide, trivial⟩, by decide, ⟨by decide, trivial⟩⟩

/-- A one-, a two- and a three-byte instruction in RAM, and BRK at 0xFFFF of an absent cartridge. -/
theorem witness_StepRunsFetchedInstruction : Running (at0300 0xA9) ∧ acceptedInterrupt (at0300 0xA9) = none ∧
    operandCount (answer (at0300 0xEA) 0x0300) = some 0 ∧ operandCount (answer (at0300 0xA9) 0x0300) = some 1 ∧
    operandCount (answer (at0300 0x4C) 0x0300) = some 2 ∧
    (∀ k, k ≤ 2 → claimed (at0300 0x4C).cfg (0x0300 + BitVec.ofNat 16 k) = true) ∧
    operandCount (answer { blank with pc := 0xFFFF } 0xFFFF) = some 0 ∧
    (∀ k, k ≤ 0 → claimed blank.cfg (0xFFFF + BitVec.ofNat 16 k) = true) :=
  ⟨rfl, by decide, by decide, by decide, by decide, by decide, by decide, by decide⟩

theorem witness_StepKeepsInvariant : Invariant State.reset ∧ ∃ t, step State.reset = .next t :=
  ⟨⟨by unfold ConfigWf; decide, by unfold MemoryWf; decide, trivial, fun _ => rfl⟩, ⟨_, rfl⟩⟩

theorem witness_ResetsHaveInvariant : ConfigWf nrom ∧ ConfigWf Config.standard ∧ Invariant State.reset :=
  ⟨by unfold ConfigWf; decide, by unfold ConfigWf; decide, witness_StepKeepsInvariant.1⟩

theorem witness_ResetRequest : peek withVector 0xFFFC = some 0x00 ∧ peek withVector 0xFFFD = some 0x80 := by decide +kernel

theorem witness_ResetVectorSource : (blank.cfg.cartPresent = false ∧ blank.cfg.strictUnmapped = false) ∧
    (strict.cfg.cartPresent = false ∧ strict.cfg.strictUnmapped = true) ∧ withVector.cfg.cartPresent = true := by decide

/-- `strict` with the interrupt extension and an active irq. -/
def strictExtension : State := { strict with irq := true, cfg := { strict.cfg with hasIrqNmi := true } }

/-- A pending NMI, an unmasked IRQ, no extension, and the extension with unclaimed vectors. -/
theorem witness_InterruptEntry : Running irqActive ∧ irqActive.cfg.hasIrqNmi = true ∧
    ({ irqActive with nmiPending := true } : State).nmiPending = true ∧ peek irqActive 0xFFFA = some 0x00 ∧
    peek irqActive 0xFFFB = some 0xA0 ∧ irqActive.nmiPending = false ∧ irqActive.irq = true ∧ irqActive.p.i = false ∧
    peek irqActive 0xFFFE = some 0x00 ∧ peek irqActive 0xFFFF = some 0x90 ∧ blank.cfg.hasIrqNmi = false ∧
    Running strictExtension ∧ strictExtension.cfg.hasIrqNmi = true ∧ strictExtension.cfg.cartPresent = false ∧
    strictExtension.cfg.strictUnmapped = true ∧ strictExtension.nmiPending = false ∧ strictExtension.irq = true ∧
    strictExtension.p.i = false :=
  ⟨rfl, by decide, by decide, by decide +kernel, by decide +kernel, by decide, by decide, by decide, by decide +kernel,
    by decide +kernel, by decide, rfl, by decide, by decide, by decide, by decide, by decide, by decide⟩

theorem witness_DecimalFlagHasNoEffect : (Instr.adcImm 0x01).mnemonic ∉
    ([.php, .brk, .plp, .rti, .cld, .sed] : List Mnemonic) := by decide

/-- A step that takes an NMI and one that runs an instruction; an address of neither RAM nor PRG RAM. -/
theorem witness_ParametersAndInputsKept : (∃ t, step (driveNmi true irqActive) = .next t ∧ t.nmiPending = false) ∧
    (∃ t, step blank = .next t) ∧ route irqActive.cfg 0x8000 = .prgRom 0 := ⟨⟨_, rfl, by decide⟩, ⟨_, rfl⟩, by decide⟩

/-- Each flag and S changed by one of its writers. -/
theorem witness_WritersOfEachFlag : (∃ t, exec .sec blank = .next t ∧ t.p.c ≠ blank.p.c) ∧
    (∃ t, exec .sei blank = .next t ∧ t.p.i ≠ blank.p.i) ∧ (∃ t, exec .sed blank = .next t ∧ t.p.d ≠ blank.p.d) ∧
    (∃ t, exec (.bitZp 0x10) (start blank [] [(0x10, 0x40)] id) = .next t ∧ t.p.v ≠ blank.p.v) ∧
    (∃ t, exec .tax blank = .next t ∧ t.p.z ≠ blank.p.z) ∧ (∃ t, exec .pha blank = .next t ∧ t.sp ≠ blank.sp) :=
  ⟨⟨_, rfl, by decide⟩, ⟨_, rfl, by decide⟩, ⟨_, rfl, by decide⟩, ⟨_, rfl, by decide⟩, ⟨_, rfl, by decide⟩,
    ⟨_, rfl, by decide⟩⟩

theorem witness_BreakThenReturn : peek withVector 0xFFFE = some 0x00 ∧ peek withVector 0xFFFF = some 0x90 := by
  decide +kernel

end Sys2Proof.Machine.Tests
end

section
/-! What no instruction writes: the parameters, the interrupt inputs and the latched NMI (spec/00_scope.md R6,
spec/60_exceptions.md R312). Proved once per operation of the bus, then carried through `exec_cases` and `step_cases`. -/

namespace Sys2Proof.Machine

/-- `t` has the parameters, the interrupt inputs and `nmi_pending` of `s`, and has used no fewer device answers. -/
structure InputsKept (s t : State) : Prop where
  cfg : t.cfg = s.cfg
  irq : t.irq = s.irq
  nmi : t.nmi = s.nmi
  nmiPending : t.nmiPending = s.nmiPending
  draws : s.draws ≤ t.draws

namespace InputsKept

theorem refl (s : State) : InputsKept s s := ⟨rfl, rfl, rfl, rfl, le_refl _⟩

theorem trans {s t u : State} (h : InputsKept s t) (h' : InputsKept t u) : InputsKept s u :=
  ⟨h'.cfg.trans h.cfg, h'.irq.trans h.irq, h'.nmi.trans h.nmi, h'.nmiPending.trans h.nmiPending, h.draws.trans h'.draws⟩

/-- Registers, the fault latch and the record of transactions are no inputs. -/
theorem withRegisters {s t : State} (h : InputsKept s t) {a x y sp : Byte} {p : Status} {pc : Addr}
    {fault : Option Fault} {bus : List BusEvent} :
    InputsKept s { t with a := a, x := x, y := y, sp := sp, p := p, pc := pc, fault := fault, bus := bus } :=
  ⟨h.cfg, h.irq, h.nmi, h.nmiPending, h.draws⟩

theorem latchFault {s t : State} (h : InputsKept s t) (s0 : State) (f : Fault) :
    InputsKept s (Machine.latchFault s0 f t) :=
  h.withRegisters

end InputsKept

/-! ### The operations of the bus (R46, R49 to R58) -/

/-- A read uses at most one device answer (R46, R50, R51). -/
theorem inputsKept_afterRead (s : State) (addr : Addr) : InputsKept s (afterRead s addr) := by
  refine ⟨rfl, rfl, rfl, rfl, ?_⟩
  simp only [afterRead]
  split <;> omega

theorem inputsKept_afterWrite (s : State) (addr : Addr) (v : Byte) : InputsKept s (afterWrite s addr v) :=
  ⟨rfl, rfl, rfl, rfl, le_refl _⟩

theorem inputsKept_afterPush (s : State) (v : Byte) : InputsKept s (afterPush s v) :=
  (inputsKept_afterWrite s _ v).withRegisters

theorem inputsKept_afterPull (s : State) : InputsKept s (afterPull s) :=
  (inputsKept_afterRead s _).withRegisters

theorem inputsKept_afterPush16 (s : State) (w : Addr) : InputsKept s (afterPush16 s w) :=
  (inputsKept_afterPush s _).trans (inputsKept_afterPush _ _)

theorem inputsKept_afterPull16 (s : State) : InputsKept s (afterPull16 s) :=
  (inputsKept_afterPull s).trans (inputsKept_afterPull _)

theorem inputsKept_afterEntryPushes (s : State) (returnTo : Addr) (b4 : Bool) :
    InputsKept s (afterEntryPushes s returnTo b4) :=
  (inputsKept_afterPush16 s returnTo).trans (inputsKept_afterPush _ _)

/-- An entry to a handler: the pushes, then the two reads of the vector (R205, R315). -/
theorem inputsKept_afterEntry (s : State) (returnTo : Addr) (b4 : Bool) (vector : Addr) :
    InputsKept s (afterEntry s returnTo b4 vector) :=
  (((inputsKept_afterEntryPushes s returnTo b4).trans (inputsKept_afterRead _ vector)).trans
    (inputsKept_afterRead _ _)).withRegisters

theorem inputsKept_afterReturn (s : State) : InputsKept s (afterReturn s) :=
  ((inputsKept_afterPull s).trans (inputsKept_afterPull16 _)).withRegisters

/-! ### The operands (R102 to R117) -/

theorem inputsKept_afterResolve (m : Mode) (s : State) : InputsKept s (afterResolve m s) :=
  (InputsKept.refl s).withRegisters

theorem inputsKept_afterLocRead (loc : Loc) (s : State) : InputsKept s (afterLocRead loc s) := by
  cases loc with
  | imm _ => exact .refl s
  | acc => exact .refl s
  | mem addr => exact inputsKept_afterRead s addr

theorem inputsKept_afterLocWrite (loc : Loc) (v : Byte) (s : State) : InputsKept s (afterLocWrite loc v s) := by
  cases loc with
  | imm _ => exact .refl s
  | acc => exact (InputsKept.refl s).withRegisters
  | mem addr => exact inputsKept_afterWrite s addr v

theorem inputsKept_afterOperand (m : Mode) (s : State) : InputsKept s (afterOperand m s) :=
  (inputsKept_afterResolve m s).trans (inputsKept_afterLocRead _ _)

theorem inputsKept_afterModify (m : Mode) (v : Byte) (s : State) : InputsKept s (afterModify m v s) :=
  (inputsKept_afterOperand m s).trans (inputsKept_afterLocWrite _ v _)

theorem inputsKept_afterStore (m : Mode) (v : Byte) (s : State) : InputsKept s (afterStore m v s) :=
  (inputsKept_afterResolve m s).trans (inputsKept_afterLocWrite _ v _)

/-! ### Instructions, fetches and interrupt entries -/

theorem inputsKept_of_effect {i : Instr} {s t : State} (h : Effect i s t) : InputsKept s t := by
  cases h with
  | reads m _ _ _ _ _ _ eq => exact eq ▸ (inputsKept_afterOperand m s).withRegisters
  | stores m v _ _ eq => exact eq ▸ (inputsKept_afterStore m v s).withRegisters
  | modifies m v _ _ _ eq => exact eq ▸ (inputsKept_afterModify m v s).withRegisters
  | unclaimed m addr dir _ eq => exact eq ▸ (InputsKept.refl s).withRegisters
  | registers _ _ _ _ _ _ eq => exact eq ▸ (InputsKept.refl s).withRegisters
  | pushes v _ eq => exact eq ▸ (inputsKept_afterPush s v).withRegisters
  | calls w _ eq => exact eq ▸ (inputsKept_afterPush16 s w).withRegisters
  | pulls _ _ _ eq => exact eq ▸ (inputsKept_afterPull s).withRegisters
  | returns _ eq => exact eq ▸ (inputsKept_afterPull16 s).withRegisters
  | returnsFromHandler eq => exact eq ▸ inputsKept_afterReturn s
  | breaks _ _ eq => exact eq ▸ inputsKept_afterEntry s _ _ _
  | breakUnclaimed _ _ eq => exact eq ▸ (inputsKept_afterEntryPushes s _ _).latchFault _ _
  | jumps p q _ eq => exact eq ▸ ((inputsKept_afterRead s p).trans (inputsKept_afterRead _ q)).withRegisters
  | jumpUnclaimed p q _ eq => exact eq ▸ (inputsKept_afterRead s p).latchFault _ _

theorem inputsKept_of_exec {i : Instr} {s t : State} (h : exec i s = .next t) : InputsKept s t :=
  inputsKept_of_effect (exec_cases h)

theorem inputsKept_beginRequest (s : State) : InputsKept s (beginRequest s) :=
  (InputsKept.refl s).withRegisters

theorem inputsKept_of_fetchInstr_ok {i : Instr} {s t : State} (h : fetchInstr s = .ok i t) : InputsKept s t := by
  rcases fetchInstr_cases s with ⟨_, _, _, hd, e⟩ | ⟨_, _, _, _, e, _⟩
  · cases e.symm.trans h
    exact ⟨rfl, rfl, rfl, rfl, hd⟩
  · cases e.symm.trans h

theorem inputsKept_of_fetchInstr_error {f : Fault} {s t : State} (h : fetchInstr s = .error f t) : InputsKept s t := by
  rcases fetchInstr_cases s with ⟨_, _, _, _, e⟩ | ⟨_, _, _, hd, e, _⟩
  · cases e.symm.trans h
  · cases e.symm.trans h
    exact ⟨rfl, rfl, rfl, rfl, hd⟩

/-- An IRQ entry keeps the inputs, `nmi_pending` among them (R314). -/
theorem inputsKept_of_takeInterrupt_irq {s t : State} (h : takeInterrupt .irq s = .next t) : InputsKept s t := by
  cases (takeInterrupt_irq s).symm.trans h
  split
  · exact inputsKept_afterEntry s _ _ _
  · exact (inputsKept_afterEntryPushes s _ _).latchFault _ _

/-- An NMI entry keeps the inputs but for `nmi_pending`, which it clears whether or not its vector can be read (R313). -/
theorem inputsKept_of_takeInterrupt_nmi {s t : State} (h : takeInterrupt .nmi s = .next t) :
    InputsKept { s with nmiPending := false } t := by
  cases (takeInterrupt_nmi s).symm.trans h
  split
  · exact inputsKept_afterEntry _ _ _ _
  · exact (inputsKept_afterEntryPushes _ _ _).latchFault _ _

/-- Everything a step does to the inputs: it keeps them, or it is an NMI entry, which clears `nmi_pending` alone. -/
theorem step_inputsKept {s t : State} (h : step s = .next t) :
    InputsKept s t ∨ (acceptedInterrupt s = some .nmi ∧ InputsKept { s with nmiPending := false } t) := by
  obtain ⟨-, ⟨k, hk, ht⟩ | ⟨-, i, u, hf, he⟩ | ⟨-, f, u, hf, rfl⟩⟩ := step_cases h
  · cases k with
    | nmi =>
      have begun : InputsKept { s with nmiPending := false } { beginRequest s with nmiPending := false } :=
        ⟨rfl, rfl, rfl, rfl, le_refl _⟩
      exact .inr ⟨hk, begun.trans (inputsKept_of_takeInterrupt_nmi ht)⟩
    | irq => exact .inl ((inputsKept_beginRequest s).trans (inputsKept_of_takeInterrupt_irq ht))
  · exact .inl (((inputsKept_beginRequest s).trans (inputsKept_of_fetchInstr_ok hf)).trans (inputsKept_of_exec he))
  · exact .inl (((inputsKept_beginRequest s).trans (inputsKept_of_fetchInstr_error hf)).latchFault _ _)

/-- Behind neither RAM nor PRG RAM, what an address reads as is fixed by the parameters (R50 to R54). -/
theorem peek_eq_of_cfg_eq {s t : State} {addr : Addr} (hc : t.cfg = s.cfg)
    (h : ∀ k, route s.cfg addr ≠ .ram k ∧ route s.cfg addr ≠ .prgRam k) : peek t addr = peek s addr := by
  unfold peek
  rw [hc]
  cases hr : route s.cfg addr with
  | ram k => exact absurd hr (h k).1
  | prgRam k => exact absurd hr (h k).2
  | device _ => rfl
  | unclaimed => rfl
  | prgRom _ => rfl

/-- Settles O57: a step keeps the inputs or is an NMI entry (`step_inputsKept`), and with the parameters PRG ROM and every
other byte that is no RAM stay. -/
theorem parametersAndInputsKept : Obligations.ParametersAndInputsKept := by
  intro s t h
  rcases step_inputsKept h with kept | ⟨hk, kept⟩
  · exact ⟨kept.cfg, kept.irq, kept.nmi, kept.draws, .inl kept.nmiPending, fun _ => peek_eq_of_cfg_eq kept.cfg⟩
  · exact ⟨kept.cfg, kept.irq, kept.nmi, kept.draws, .inr ⟨hk, kept.nmiPending⟩, fun _ => peek_eq_of_cfg_eq kept.cfg⟩

end Sys2Proof.Machine
end

section
/-! What every step keeps (spec/10_state.md R32, spec/20_memory.md R49, R53, spec/60_exceptions.md R302, R306): canonical
bounded memories and a truthful latch. Only a write transaction changes a memory, and only a refused access or an illegal
opcode fills the latch. -/

namespace Sys2Proof.Machine

/-! ### The memories (R49, R53) -/

theorem MemoryWf.congr {s t : State} (h : MemoryWf s) (ram : t.ram = s.ram) (prgRam : t.prgRam = s.prgRam)
    (cfg : t.cfg = s.cfg) : MemoryWf t := by
  simpa only [MemoryWf, ram, prgRam, cfg] using h

/-- Registers, the fault latch and the record of transactions are no memory. -/
theorem MemoryWf.withRegisters {s : State} (h : MemoryWf s) {a x y sp : Byte} {p : Status} {pc : Addr}
    {fault : Option Fault} {bus : List BusEvent} :
    MemoryWf { s with a := a, x := x, y := y, sp := sp, p := p, pc := pc, fault := fault, bus := bus } :=
  h

theorem MemoryWf.latchFault {t : State} (h : MemoryWf t) (s0 : State) (f : Fault) :
    MemoryWf (Machine.latchFault s0 f t) :=
  h.withRegisters

/-- A write transaction reaches only indexes below its array's size. -/
theorem MemoryWf.afterWrite {s : State} (h : MemoryWf s) (addr : Addr) (v : Byte) :
    MemoryWf (afterWrite s addr v) := by
  obtain ⟨ramWf, ramBelow, prgWf, prgBelow⟩ := h
  unfold MemoryWf Machine.afterWrite
  cases hr : route s.cfg addr with
  | ram k => exact ⟨Memory.wf_write k v ramWf, Memory.below_write v (route_ram_lt hr) ramBelow, prgWf, prgBelow⟩
  | prgRam k => exact ⟨ramWf, ramBelow, Memory.wf_write k v prgWf, Memory.below_write v (route_prgRam_lt hr) prgBelow⟩
  | device _ | unclaimed | prgRom _ => exact ⟨ramWf, ramBelow, prgWf, prgBelow⟩

theorem MemoryWf.afterPush {s : State} (h : MemoryWf s) (v : Byte) : MemoryWf (afterPush s v) :=
  h.afterWrite (stackAddr s.sp) v

theorem MemoryWf.afterPush16 {s : State} (h : MemoryWf s) (w : Addr) : MemoryWf (afterPush16 s w) :=
  (h.afterPush _).afterPush _

theorem MemoryWf.afterEntryPushes {s : State} (h : MemoryWf s) (returnTo : Addr) (b4 : Bool) :
    MemoryWf (afterEntryPushes s returnTo b4) :=
  (h.afterPush16 returnTo).afterPush _

theorem MemoryWf.afterEntry {s : State} (h : MemoryWf s) (returnTo : Addr) (b4 : Bool) (vector : Addr) :
    MemoryWf (afterEntry s returnTo b4 vector) :=
  h.afterEntryPushes returnTo b4

theorem MemoryWf.afterRead {s : State} (h : MemoryWf s) (addr : Addr) : MemoryWf (afterRead s addr) :=
  h.congr rfl rfl rfl

theorem MemoryWf.afterPull {s : State} (h : MemoryWf s) : MemoryWf (afterPull s) :=
  h.congr rfl rfl rfl

theorem MemoryWf.afterPull16 {s : State} (h : MemoryWf s) : MemoryWf (afterPull16 s) :=
  h.afterPull.afterPull

theorem MemoryWf.afterReturn {s : State} (h : MemoryWf s) : MemoryWf (afterReturn s) :=
  h.afterPull.afterPull16.withRegisters

theorem MemoryWf.afterOperand {s : State} (h : MemoryWf s) (m : Mode) : MemoryWf (afterOperand m s) :=
  h.congr (afterOperand_ram m s) (afterOperand_prgRam m s) (afterOperand_cfg m s)

theorem MemoryWf.afterLocWrite {s : State} (h : MemoryWf s) (loc : Loc) (v : Byte) :
    MemoryWf (afterLocWrite loc v s) := by
  cases loc with
  | imm _ | acc => exact h
  | mem addr => exact h.afterWrite addr v

theorem MemoryWf.afterStore {s : State} (h : MemoryWf s) (m : Mode) (v : Byte) : MemoryWf (afterStore m v s) :=
  MemoryWf.afterLocWrite (s := afterResolve m s) h.withRegisters _ v

theorem MemoryWf.afterModify {s : State} (h : MemoryWf s) (m : Mode) (v : Byte) : MemoryWf (afterModify m v s) :=
  (h.afterOperand m).afterLocWrite _ v

theorem memoryWf_of_effect {i : Instr} {s t : State} (h : MemoryWf s) (he : Effect i s t) : MemoryWf t := by
  cases he with
  | reads m _ _ _ _ _ _ eq => exact eq ▸ (h.afterOperand m).withRegisters
  | stores m v _ _ eq => exact eq ▸ (h.afterStore m v).withRegisters
  | modifies m v _ _ _ eq => exact eq ▸ (h.afterModify m v).withRegisters
  | unclaimed _ _ _ _ eq | registers _ _ _ _ _ _ eq => exact eq ▸ h.withRegisters
  | pushes v _ eq => exact eq ▸ (h.afterPush v).withRegisters
  | calls w _ eq => exact eq ▸ (h.afterPush16 w).withRegisters
  | pulls _ _ _ eq => exact eq ▸ h.afterPull.withRegisters
  | returns _ eq => exact eq ▸ h.afterPull16.withRegisters
  | returnsFromHandler eq => exact eq ▸ h.afterReturn
  | breaks _ _ eq => exact eq ▸ h.afterEntry _ _ _
  | breakUnclaimed _ _ eq => exact eq ▸ (h.afterEntryPushes _ _).latchFault _ _
  | jumps p q _ eq => exact eq ▸ ((h.afterRead p).afterRead q).withRegisters
  | jumpUnclaimed p _ _ eq => exact eq ▸ (h.afterRead p).latchFault _ _

/-! ### The latch (R302, R306) -/

theorem latchTrue_of_running {s : State} (h : Running s) : LatchTrue s := by
  simp only [Running] at h
  simp only [LatchTrue, h]

theorem latchTrue_of_unclaimed {s : State} {addr : Addr} {dir : Dir}
    (hf : s.fault = some (.unmappedMemoryAccess addr dir)) (hc : claimed s.cfg addr = false) : LatchTrue s := by
  simpa only [LatchTrue, hf] using hc

theorem latchTrue_of_illegal {s : State} {op : Byte} (hf : s.fault = some (.illegalOpcode op s.pc))
    (ho : operandCount op = none) : LatchTrue s := by
  simpa only [LatchTrue, hf, and_true] using ho

/-- An instruction leaves the latch clear, or puts an unclaimed address into it (R306). -/
theorem latchTrue_of_effect {i : Instr} {s t : State} (h : Running s) (he : Effect i s t) : LatchTrue t := by
  have hc : t.cfg = s.cfg := (inputsKept_of_effect he).cfg
  cases he with
  | unclaimed _ _ _ claim eq | breakUnclaimed _ claim eq | jumpUnclaimed _ _ claim eq =>
    exact latchTrue_of_unclaimed (by rw [eq]; rfl) (hc ▸ claim)
  | reads _ _ _ _ _ _ _ eq => exact latchTrue_of_running (eq ▸ (afterOperand_fault _ s).trans h)
  | stores m _ _ _ eq | modifies m _ _ _ _ eq =>
    refine latchTrue_of_running (eq ▸ Eq.trans ?_ h)
    cases m <;> rfl
  | pushes _ _ eq | registers _ _ _ _ _ _ eq | calls _ _ eq | pulls _ _ _ eq | returns _ eq | returnsFromHandler eq
  | breaks _ _ eq | jumps _ _ _ eq =>
    refine latchTrue_of_running (eq ▸ Eq.trans ?_ h)
    simp [afterReturn]

/-! ### Instructions, fetches and interrupt entries -/

theorem Invariant.config {s : State} (h : Invariant s) : ConfigWf s.cfg := h.1

theorem Invariant.memory {s : State} (h : Invariant s) : MemoryWf s := h.2.1

/-- What is left of the invariant where the inputs are kept: the memories and the latch. -/
theorem Invariant.of_inputsKept {s t : State} (h : Invariant s) (kept : InputsKept s t) (mem : MemoryWf t)
    (latch : LatchTrue t) : Invariant t := by
  obtain ⟨config, -, -, pending⟩ := h
  exact ⟨kept.cfg ▸ config, mem, latch, kept.cfg ▸ kept.nmiPending ▸ pending⟩

theorem Invariant.exec {i : Instr} {s t : State} (h : Invariant s) (running : Running s) (he : exec i s = .next t) :
    Invariant t :=
  h.of_inputsKept (inputsKept_of_exec he) (memoryWf_of_effect h.memory (exec_cases he))
    (latchTrue_of_effect running (exec_cases he))

/-- A fetch that answers an instruction changes neither memories nor latch. -/
theorem Invariant.fetch {i : Instr} {s t : State} (h : Invariant s) (running : Running s)
    (hf : fetchInstr s = .ok i t) : Invariant t ∧ Running t := by
  rcases fetchInstr_cases s with ⟨_, _, _, _, e⟩ | ⟨_, _, _, _, e, _⟩
  · cases e.symm.trans hf
    exact ⟨h, running⟩
  · cases e.symm.trans hf

/-- A fetch that raises latches an unclaimed address, or the illegal opcode at PC (R302, R306). -/
theorem Invariant.fetchFault {f : Fault} {s t : State} (h : Invariant s) (hf : fetchInstr s = .error f t) :
    Invariant (latchFault s f t) := by
  have kept := (inputsKept_of_fetchInstr_error hf).latchFault s f
  rcases fetchInstr_cases s with ⟨_, _, _, _, e⟩ | ⟨_, _, _, _, e, why⟩
  · cases e.symm.trans hf
  · cases e.symm.trans hf
    refine h.of_inputsKept kept h.memory ?_
    rcases why with ⟨addr, hc, rfl⟩ | ⟨op, ho, rfl⟩
    · exact latchTrue_of_unclaimed rfl hc
    · exact latchTrue_of_illegal rfl ho

/-- A handler is entered, or its unclaimed vector is latched, the pushes done (R205, R315). -/
theorem Invariant.enterHandler {s : State} (h : Invariant s) (running : Running s) (s0 : State) (returnTo : Addr)
    (b4 : Bool) (vector : Addr) :
    Invariant (if claimed s.cfg vector then afterEntry s returnTo b4 vector
      else latchFault s0 (.unmappedMemoryAccess vector .read) (afterEntryPushes s returnTo b4)) := by
  split
  case isTrue =>
    exact h.of_inputsKept (inputsKept_afterEntry s _ _ _) (h.memory.afterEntry _ _ _)
      (latchTrue_of_running ((afterEntry_fault s _ _ _).trans running))
  case isFalse unclaimed =>
    exact h.of_inputsKept ((inputsKept_afterEntryPushes s _ _).latchFault _ _)
      ((h.memory.afterEntryPushes _ _).latchFault _ _) (latchTrue_of_unclaimed rfl (by simpa using unclaimed))

/-- An NMI entry clears `nmi_pending` first, which the invariant allows (R313). -/
theorem Invariant.takeInterrupt {k : Interrupt} {s t : State} (h : Invariant s) (running : Running s)
    (ht : takeInterrupt k s = .next t) : Invariant t := by
  cases k with
  | nmi =>
    have cleared : Invariant { s with nmiPending := false } :=
      ⟨h.config, h.memory, latchTrue_of_running running, fun _ => rfl⟩
    cases (takeInterrupt_nmi s).symm.trans ht
    exact cleared.enterHandler running s s.pc false nmiVector
  | irq =>
    cases (takeInterrupt_irq s).symm.trans ht
    exact h.enterHandler running s s.pc false irqVector

/-- Settles O51, by the three things a step can do (`step_cases`). -/
theorem stepKeepsInvariant : Obligations.StepKeepsInvariant := by
  intro s t h hs
  have begun : Invariant (beginRequest s) := h
  obtain ⟨running, ⟨k, -, ht⟩ | ⟨-, i, u, hf, he⟩ | ⟨-, f, u, hf, rfl⟩⟩ := step_cases hs
  · exact begun.takeInterrupt running ht
  · obtain ⟨fetched, running⟩ := begun.fetch running hf
    exact fetched.exec running he
  · exact begun.fetchFault hf

end Sys2Proof.Machine
end

section
/-! The Decimal flag changes no result (spec/10_state.md R29): a simulation between two runs that differ in D alone. It is
proved of each operation of the bus and closed under sequencing; an instruction's body inherits it from its operations. -/

namespace Sys2Proof.Machine

/-- An answer of the bus with its state, at a fault too, at the other value of D. -/
def withDecimalResult {α : Type} (d : Bool) : EStateM.Result Fault State α → EStateM.Result Fault State α
  | .ok v t => .ok v (withDecimal d t)
  | .error f t => .error f (withDecimal d t)

/-- Run with D at any value, the computation answers and faults as it does with the D it finds, and carries that D along. -/
def DecimalBlind {α : Type} (body : Bus α) : Prop :=
  ∀ d s, body (withDecimal d s) = withDecimalResult d (body s)

/-! ### Sequencing -/

theorem decimalBlind_pure {α : Type} (v : α) : DecimalBlind (pure v : Bus α) := fun _ _ => rfl

theorem DecimalBlind.bind {α β : Type} {body : Bus α} {next : α → Bus β} (hb : DecimalBlind body)
    (hn : ∀ v, DecimalBlind (next v)) : DecimalBlind (body >>= next) := by
  intro d s
  have hbody := hb d s
  cases h : body s with
  | ok v t =>
    rw [h] at hbody
    rw [bind_ok hbody, bind_ok h, hn v d t]
  | error f t =>
    rw [h] at hbody
    rw [bind_error hbody, bind_error h]
    rfl

/-- Reading the state is blind when what is read of it does not depend on D. -/
theorem decimalBlind_get_bind {β : Type} {next : State → Bus β} (hr : ∀ d s, next (withDecimal d s) = next s)
    (hn : ∀ s, DecimalBlind (next s)) : DecimalBlind (get >>= next) := by
  intro d s
  rw [get_bind, get_bind, hr, hn s d s]

theorem decimalBlind_modify {g : State → State} (hg : ∀ d s, g (withDecimal d s) = withDecimal d (g s)) :
    DecimalBlind (modify g : Bus Unit) := fun d s => congrArg (EStateM.Result.ok ()) (hg d s)

/-! ### The operations of the bus (R41 to R59) -/

theorem decimalBlind_advance (n : Nat) : DecimalBlind (advance n) := decimalBlind_modify fun _ _ => rfl

theorem decimalBlind_setPc (target : Addr) : DecimalBlind (setPc target) := decimalBlind_modify fun _ _ => rfl

theorem decimalBlind_memRead (addr : Addr) : DecimalBlind (memRead addr) := by
  intro d s
  cases h : claimed s.cfg addr
  · rw [memRead_error h, memRead_error (s := withDecimal d s) h]
    rfl
  · rw [memRead_ok h, memRead_ok (s := withDecimal d s) h]
    rfl

theorem decimalBlind_memWrite (addr : Addr) (v : Byte) : DecimalBlind (memWrite addr v) := by
  intro d s
  cases h : claimed s.cfg addr
  · rw [memWrite_error v h, memWrite_error (s := withDecimal d s) v h]
    rfl
  · rw [memWrite_ok v h, memWrite_ok (s := withDecimal d s) v h]
    rfl

theorem decimalBlind_push (v : Byte) : DecimalBlind (push v) :=
  decimalBlind_get_bind (fun _ _ => rfl) fun _ =>
    (decimalBlind_memWrite _ v).bind fun _ => decimalBlind_modify fun _ _ => rfl

theorem decimalBlind_pull : DecimalBlind pull :=
  (decimalBlind_modify fun _ _ => rfl).bind fun _ =>
    decimalBlind_get_bind (fun _ _ => rfl) fun _ => decimalBlind_memRead _

theorem decimalBlind_push16 (w : Addr) : DecimalBlind (push16 w) :=
  (decimalBlind_push _).bind fun _ => decimalBlind_push _

theorem decimalBlind_pull16 : DecimalBlind pull16 :=
  decimalBlind_pull.bind fun _ => decimalBlind_pull.bind fun _ => decimalBlind_pure _

/-! ### The operands (R102 to R117) -/

theorem decimalBlind_resolve (m : Mode) : DecimalBlind (resolve m) := by
  intro d s
  rw [resolve_run, resolve_run]
  cases m <;> rfl

theorem decimalBlind_readLoc (loc : Loc) : DecimalBlind (readLoc loc) := by
  cases loc with
  | imm v => exact decimalBlind_pure v
  | acc => exact decimalBlind_get_bind (fun _ _ => rfl) fun _ => decimalBlind_pure _
  | mem addr => exact decimalBlind_memRead addr

theorem decimalBlind_writeLoc (loc : Loc) (v : Byte) : DecimalBlind (writeLoc loc v) := by
  cases loc with
  | imm _ => exact decimalBlind_pure ()
  | acc => exact decimalBlind_modify fun _ _ => rfl
  | mem addr => exact decimalBlind_memWrite addr v

theorem decimalBlind_readOperand (m : Mode) : DecimalBlind (readOperand m) :=
  (decimalBlind_advance _).bind fun _ => (decimalBlind_resolve m).bind fun _ => decimalBlind_readLoc _

/-! ### The shapes of an instruction's body -/

theorem decimalBlind_operandThen {m : Mode} {g : Byte → State → State}
    (hg : ∀ v d s, g v (withDecimal d s) = withDecimal d (g v s)) :
    DecimalBlind (readOperand m >>= fun v => modify (g v)) :=
  (decimalBlind_readOperand m).bind fun v => decimalBlind_modify (hg v)

theorem decimalBlind_store (m : Mode) {r : State → Byte} (hr : ∀ d s, r (withDecimal d s) = r s) :
    DecimalBlind (store m r) :=
  (decimalBlind_advance _).bind fun _ => (decimalBlind_resolve m).bind fun loc =>
    decimalBlind_get_bind (fun d s => by rw [hr]) fun _ => decimalBlind_writeLoc loc _

theorem decimalBlind_readModifyWrite (m : Mode) (result : Byte → Bool → Byte) (carry : Byte → Bool → Bool) :
    DecimalBlind (readModifyWrite m result carry) :=
  (decimalBlind_advance _).bind fun _ => (decimalBlind_resolve m).bind fun loc =>
    (decimalBlind_readLoc loc).bind fun _ => decimalBlind_get_bind (fun _ _ => rfl) fun _ =>
      (decimalBlind_modify fun _ _ => rfl).bind fun _ =>
        (decimalBlind_writeLoc loc _).bind fun _ => decimalBlind_modify fun _ _ => rfl

theorem decimalBlind_branch {taken : Status → Bool} (disp : Byte)
    (ht : ∀ d (s : State), taken (withDecimal d s).p = taken s.p) : DecimalBlind (branch taken disp) := by
  refine (decimalBlind_advance 2).bind fun _ => decimalBlind_get_bind (fun d s => by rw [ht]) fun s => ?_
  cases taken s.p
  · exact decimalBlind_pure ()
  · exact decimalBlind_modify fun _ _ => rfl

/-- An instruction whose body is blind is the same for both values of D, a latched fault included. -/
theorem DecimalBlind.runInstr {body : Bus Unit} (h : DecimalBlind body) (s : State) (d : Bool) :
    runInstr body (withDecimal d s) = mapNext (withDecimal d) (runInstr body s) := by
  unfold Machine.runInstr
  rw [h d s]
  cases body s <;> rfl

/-- An instruction other than BRK runs one body in every state. -/
theorem exec_withDecimal {i : Instr} {body : Bus Unit} (hb : ∀ s, exec i s = runInstr body s) (h : DecimalBlind body)
    (s : State) (d : Bool) : exec i (withDecimal d s) = mapNext (withDecimal d) (exec i s) := by
  rw [hb, hb, h.runInstr]

/-- Settles O56, by the shape of each instruction's body; the immediate, accumulator and register forms issue no
transaction, and both sides compute to the same next state. -/
theorem decimalFlagHasNoEffect : Obligations.DecimalFlagHasNoEffect := by
  intro i s d others
  cases i
  case php | brk | plp | rti | cld | sed => exact absurd others (by decide)
  case oraImm | andImm | eorImm | adcImm | sbcImm | cmpImm | cpxImm | cpyImm | ldaImm | ldxImm | ldyImm | aslAcc | lsrAcc
      | rolAcc | rorAcc | jmpAbs | clc | sec | cli | sei | clv | tax | txa | tay | tya | tsx | txs | inx | iny | dex
      | dey | nop =>
    rfl
  all_goals refine exec_withDecimal (fun _ => rfl) ?_ s d
  case jmpInd w =>
    exact (decimalBlind_advance 3).bind fun _ => (decimalBlind_memRead w).bind fun _ =>
      (decimalBlind_memRead _).bind fun _ => decimalBlind_setPc _
  case jsr w =>
    exact (decimalBlind_advance 3).bind fun _ => decimalBlind_get_bind (fun _ _ => rfl) fun _ =>
      (decimalBlind_push16 _).bind fun _ => decimalBlind_setPc w
  case rts => exact (decimalBlind_advance 1).bind fun _ => decimalBlind_pull16.bind fun _ => decimalBlind_setPc _
  case pha =>
    exact (decimalBlind_advance 1).bind fun _ => decimalBlind_get_bind (fun _ _ => rfl) fun _ => decimalBlind_push _
  case pla =>
    exact (decimalBlind_advance 1).bind fun _ => decimalBlind_pull.bind fun _ => decimalBlind_modify fun _ _ => rfl
  case bpl | bmi | bvc | bvs | bcc | bcs | bne | beq => exact decimalBlind_branch _ fun _ _ => rfl
  case staIndX | staZp | staAbs | staIndY | staZpX | staAbsY | staAbsX | stxZp | stxAbs | stxZpY | styZp | styAbs
      | styZpX =>
    exact decimalBlind_store _ fun _ _ => rfl
  case aslZp | aslAbs | aslZpX | aslAbsX | rolZp | rolAbs | rolZpX | rolAbsX | lsrZp | lsrAbs | lsrZpX | lsrAbsX | rorZp
      | rorAbs | rorZpX | rorAbsX | decZp | decAbs | decZpX | decAbsX | incZp | incAbs | incZpX | incAbsX =>
    exact decimalBlind_readModifyWrite _ _ _
  all_goals exact decimalBlind_operandThen fun _ _ _ => rfl

end Sys2Proof.Machine
end

section
/-! The writers of the flags and of S (spec/10_state.md R22, R25, R35). The changes of P are built from five single ones, one
for each flag that has its own list and one for Z and N together; an operation's flag computation is a composition of them. -/

namespace Sys2Proof.Machine

/-! ### The lists of the spec -/

/-- The writers of C (R25). -/
def carryWriters : List Mnemonic :=
  [.adc, .sbc, .cmp, .cpx, .cpy, .asl, .lsr, .rol, .ror, .clc, .sec, .plp, .rti]

/-- The writers of I (R25). -/
def interruptWriters : List Mnemonic := [.cli, .sei, .brk, .plp, .rti]

/-- The writers of D (R25). -/
def decimalWriters : List Mnemonic := [.cld, .sed, .plp, .rti]

/-- The writers of V (R25). -/
def overflowWriters : List Mnemonic := [.adc, .sbc, .bit, .clv, .plp, .rti]

/-- The instructions that leave Z and N alone (R35). -/
def zeroNegativeKeepers : List Mnemonic :=
  [.jmp, .jsr, .rts, .brk, .bpl, .bmi, .bvc, .bvs, .bcc, .bcs, .bne, .beq, .pha, .php, .txs, .sta, .stx, .sty,
    .clc, .sec, .cli, .sei, .clv, .cld, .sed, .nop]

/-- The writers of S: the instructions that push or pull, and TXS (R22, R56 to R59, R239). -/
def stackPointerWriters : List Mnemonic := [.pha, .php, .pla, .plp, .jsr, .rts, .rti, .brk, .txs]

/-- From `p` to `q` no flag changes that the lists deny the mnemonic. -/
structure FlagsByWriters (m : Mnemonic) (p q : Status) : Prop where
  c : m ∉ carryWriters → q.c = p.c
  i : m ∉ interruptWriters → q.i = p.i
  d : m ∉ decimalWriters → q.d = p.d
  v : m ∉ overflowWriters → q.v = p.v
  z : m ∈ zeroNegativeKeepers → q.z = p.z
  n : m ∈ zeroNegativeKeepers → q.n = p.n

/-- From `s` to `t` neither a flag nor S changes that the lists deny the mnemonic. -/
structure ByWriters (m : Mnemonic) (s t : State) : Prop where
  flags : FlagsByWriters m s.p t.p
  sp : m ∉ stackPointerWriters → t.sp = s.sp

/-! ### Changes of P -/

namespace FlagsByWriters

variable {m : Mnemonic}

theorem refl (p : Status) : FlagsByWriters m p p :=
  ⟨fun _ => rfl, fun _ => rfl, fun _ => rfl, fun _ => rfl, fun _ => rfl, fun _ => rfl⟩

theorem trans {p q r : Status} (h : FlagsByWriters m p q) (h' : FlagsByWriters m q r) : FlagsByWriters m p r where
  c hm := (h'.c hm).trans (h.c hm)
  i hm := (h'.i hm).trans (h.i hm)
  d hm := (h'.d hm).trans (h.d hm)
  v hm := (h'.v hm).trans (h.v hm)
  z hm := (h'.z hm).trans (h.z hm)
  n hm := (h'.n hm).trans (h.n hm)

theorem carry (hm : m ∈ carryWriters) (p : Status) (c : Bool) : FlagsByWriters m p { p with c := c } :=
  { refl p with c := absurd hm }

theorem interrupt (hm : m ∈ interruptWriters) (p : Status) (i : Bool) : FlagsByWriters m p { p with i := i } :=
  { refl p with i := absurd hm }

theorem decimal (hm : m ∈ decimalWriters) (p : Status) (d : Bool) : FlagsByWriters m p { p with d := d } :=
  { refl p with d := absurd hm }

theorem overflow (hm : m ∈ overflowWriters) (p : Status) (v : Bool) : FlagsByWriters m p { p with v := v } :=
  { refl p with v := absurd hm }

theorem zeroNegative (hm : m ∉ zeroNegativeKeepers) (p : Status) (z n : Bool) :
    FlagsByWriters m p { p with z := z, n := n } :=
  { refl p with z := (absurd · hm), n := (absurd · hm) }

/-- `SetZN` (R34). -/
theorem setZN (hm : m ∉ zeroNegativeKeepers) (p : Status) (v : Byte) : FlagsByWriters m p (setZN v p) :=
  zeroNegative hm p _ _

/-- ADC and SBC (R153, R154). -/
theorem addFlags (hc : m ∈ carryWriters) (hv : m ∈ overflowWriters) (hm : m ∉ zeroNegativeKeepers) (p : Status)
    (a v : Byte) : FlagsByWriters m p (addFlags a v p) :=
  ((carry hc p _).trans (overflow hv _ _)).trans (setZN hm _ _)

/-- The compares (R155 to R157). -/
theorem compareFlags (hc : m ∈ carryWriters) (hm : m ∉ zeroNegativeKeepers) (p : Status) (r v : Byte) :
    FlagsByWriters m p (compareFlags r v p) :=
  (carry hc p _).trans (zeroNegative hm _ _ _)

/-- BIT (R158). -/
theorem bitTestFlags (hv : m ∈ overflowWriters) (hm : m ∉ zeroNegativeKeepers) (p : Status) (a v : Byte) :
    FlagsByWriters m p (bitTestFlags a v p) :=
  (overflow hv p (v.getLsbD 6)).trans (zeroNegative hm _ _ _)

/-- The shifts and rotates (R181 to R184). -/
theorem shift (hc : m ∈ carryWriters) (hm : m ∉ zeroNegativeKeepers) (p : Status) (c : Bool) (v : Byte) :
    FlagsByWriters m p (Machine.setZN v { p with c := c }) :=
  (carry hc p c).trans (setZN hm _ v)

/-- PLP and RTI, which pull all six flags (R204, R233). -/
theorem pulled (hc : m ∈ carryWriters) (hi : m ∈ interruptWriters) (hd : m ∈ decimalWriters) (hv : m ∈ overflowWriters)
    (hm : m ∉ zeroNegativeKeepers) (p q : Status) : FlagsByWriters m p q :=
  ⟨absurd hc, absurd hi, absurd hd, absurd hv, (absurd · hm), (absurd · hm)⟩

end FlagsByWriters

/-! ### The shapes of an instruction -/

theorem ByWriters.of_eq {m : Mnemonic} {s t : State} (hp : t.p = s.p) (hsp : t.sp = s.sp) : ByWriters m s t :=
  ⟨hp ▸ .refl _, fun _ => hsp⟩

/-- An instruction that latches the fault of its operand changes no flag, and one that reads it changes what its own change
of state does. -/
theorem byWriters_of_operandThen {n : Mnemonic} {m : Mode} {s t : State} {body : Bus Unit} {g : Byte → State → State}
    (he : runInstr body s = .next t) (hb : body = readOperand m >>= fun v => modify (g v))
    (hg : ∀ v u, FlagsByWriters n u.p (g v u).p) (hsp : ∀ v u, (g v u).sp = u.sp) : ByWriters n s t := by
  rcases operandThen_cases he hb with ⟨-, rfl⟩ | ⟨addr, -, -, rfl⟩
  · exact ⟨by simpa using hg (operandByte m s) { afterOperand m s with pc := s.pc + BitVec.ofNat 16 (modeLength m) },
      fun _ => (hsp _ _).trans (afterOperand_sp m s)⟩
  · exact .of_eq rfl rfl

theorem byWriters_of_store {n : Mnemonic} {m : Mode} {s t : State} {r : State → Byte}
    (he : runInstr (store m r) s = .next t) (hr : ∀ bus pc, r { s with bus := bus, pc := pc } = r s) :
    ByWriters n s t := by
  rcases store_cases he hr with ⟨-, rfl⟩ | ⟨addr, -, -, rfl⟩
  · cases m <;> exact .of_eq rfl rfl
  · exact .of_eq rfl rfl

theorem byWriters_of_readModifyWrite {n : Mnemonic} {m : Mode} {s t : State} {result : Byte → Bool → Byte}
    {carry : Byte → Bool → Bool} (he : runInstr (readModifyWrite m result carry) s = .next t)
    (hp : ∀ v w, FlagsByWriters n s.p (setZN w { s.p with c := carry v s.p.c })) : ByWriters n s t := by
  rcases readModifyWrite_cases he with ⟨-, rfl⟩ | ⟨addr, -, -, rfl⟩
  · refine ⟨hp _ _, fun _ => ?_⟩
    cases m <;> rfl
  · exact .of_eq rfl rfl

theorem byWriters_of_branch {n : Mnemonic} {s t : State} {taken : Status → Bool} {disp : Byte}
    (he : runInstr (branch taken disp) s = .next t) : ByWriters n s t := by
  cases h : taken s.p
  all_goals
    simp [runInstr, branch, h] at he
    subst he
    exact .of_eq rfl rfl

theorem byWriters_of_brk {s t : State} (he : exec .brk s = .next t) : ByWriters .brk s t := by
  refine ⟨?_, absurd (by decide)⟩
  cases h : claimed s.cfg irqVector
  · cases (brk_error h).symm.trans he
    exact .refl s.p
  · cases (brk_ok h).symm.trans he
    exact .interrupt (by decide) s.p true

theorem byWriters_of_jmpInd {p : Addr} {s t : State} (he : exec (.jmpInd p) s = .next t) : ByWriters .jmp s t := by
  cases h : claimed s.cfg p
  · cases (jmpInd_error_low h).symm.trans he
    exact .of_eq rfl rfl
  · cases h' : claimed s.cfg (joinBytes (highByte p) (lowByte p + 1))
    · cases (jmpInd_error_high h h').symm.trans he
      exact .of_eq rfl rfl
    · cases (jmpInd_ok h h').symm.trans he
      exact .of_eq rfl rfl

/-- The lists over all 151 instructions, by the shape and the flag computation of each. -/
theorem byWriters_of_exec {i : Instr} {s t : State} (he : exec i s = .next t) : ByWriters i.mnemonic s t := by
  cases i <;> simp only [Instr.mnemonic]
  case brk => exact byWriters_of_brk he
  case jmpInd p => exact byWriters_of_jmpInd he
  case jsr w => cases (jsr_next s w).symm.trans he; exact ⟨by simpa using .refl s.p, absurd (by decide)⟩
  case rts => cases (rts_next s).symm.trans he; exact ⟨by simpa using .refl s.p, absurd (by decide)⟩
  case pha => cases (pha_next s).symm.trans he; exact ⟨.refl s.p, absurd (by decide)⟩
  case php => cases (php_next s).symm.trans he; exact ⟨.refl s.p, absurd (by decide)⟩
  case pla => cases (pla_next s).symm.trans he; exact ⟨.setZN (by decide) s.p _, absurd (by decide)⟩
  case plp | rti =>
    exact ⟨.pulled (by decide) (by decide) (by decide) (by decide) (by decide) s.p _, absurd (by decide)⟩
  case bpl | bmi | bvc | bvs | bcc | bcs | bne | beq => exact byWriters_of_branch he
  case staIndX | staZp | staAbs | staIndY | staZpX | staAbsY | staAbsX =>
    exact byWriters_of_store (r := State.a) he fun _ _ => rfl
  case stxZp | stxAbs | stxZpY => exact byWriters_of_store (r := State.x) he fun _ _ => rfl
  case styZp | styAbs | styZpX => exact byWriters_of_store (r := State.y) he fun _ _ => rfl
  case aslZp | aslAbs | aslZpX | aslAbsX | rolZp | rolAbs | rolZpX | rolAbsX | lsrZp | lsrAbs | lsrZpX
      | lsrAbsX | rorZp | rorAbs | rorZpX | rorAbsX =>
    exact byWriters_of_readModifyWrite he fun _ _ => .shift (by decide) (by decide) _ _ _
  case incZp | incAbs | incZpX | incAbsX | decZp | decAbs | decZpX | decAbsX =>
    exact byWriters_of_readModifyWrite he fun _ _ => .setZN (by decide) _ _
  case oraIndX | oraZp | oraAbs | oraIndY | oraZpX | oraAbsY | oraAbsX | andIndX | andZp | andAbs | andIndY
      | andZpX | andAbsY | andAbsX | eorIndX | eorZp | eorAbs | eorIndY | eorZpX | eorAbsY | eorAbsX | ldaIndX | ldaZp
      | ldaAbs | ldaIndY | ldaZpX | ldaAbsY | ldaAbsX | ldxZp | ldxAbs | ldxZpY | ldxAbsY | ldyZp | ldyAbs | ldyZpX
      | ldyAbsX =>
    exact byWriters_of_operandThen he rfl (fun _ _ => .setZN (by decide) _ _) fun _ _ => rfl
  case adcIndX | adcZp | adcAbs | adcIndY | adcZpX | adcAbsY | adcAbsX | sbcIndX | sbcZp | sbcAbs | sbcIndY | sbcZpX
      | sbcAbsY | sbcAbsX =>
    exact byWriters_of_operandThen he rfl (fun _ _ => .addFlags (by decide) (by decide) (by decide) _ _ _) fun _ _ => rfl
  case cmpIndX | cmpZp | cmpAbs | cmpIndY | cmpZpX | cmpAbsY | cmpAbsX | cpxZp | cpxAbs | cpyZp | cpyAbs =>
    exact byWriters_of_operandThen he rfl (fun _ _ => .compareFlags (by decide) (by decide) _ _ _) fun _ _ => rfl
  case bitZp | bitAbs =>
    exact byWriters_of_operandThen he rfl (fun _ _ => .bitTestFlags (by decide) (by decide) _ _ _) fun _ _ => rfl
  all_goals cases he
  case jmpAbs | nop => exact .of_eq rfl rfl
  case txs => exact ⟨.refl s.p, absurd (by decide)⟩
  case clc | sec => exact ⟨.carry (by decide) s.p _, fun _ => rfl⟩
  case cli | sei => exact ⟨.interrupt (by decide) s.p _, fun _ => rfl⟩
  case cld | sed => exact ⟨.decimal (by decide) s.p _, fun _ => rfl⟩
  case clv => exact ⟨.overflow (by decide) s.p _, fun _ => rfl⟩
  case adcImm | sbcImm => exact ⟨.addFlags (by decide) (by decide) (by decide) s.p _ _, fun _ => rfl⟩
  case cmpImm | cpxImm | cpyImm => exact ⟨.compareFlags (by decide) (by decide) s.p _ _, fun _ => rfl⟩
  case aslAcc | rolAcc | lsrAcc | rorAcc => exact ⟨.shift (by decide) (by decide) s.p _ _, fun _ => rfl⟩
  case oraImm | andImm | eorImm | ldaImm | ldxImm | ldyImm | tax | txa | tay | tya | tsx | inx | iny | dex | dey =>
    exact ⟨.setZN (by decide) s.p _, fun _ => rfl⟩

/-- Settles O58: the lists read backwards. -/
theorem writersOfEachFlag : Obligations.WritersOfEachFlag := by
  intro i s t he
  obtain ⟨flags, sp⟩ := byWriters_of_exec he
  exact ⟨not_imp_comm.1 flags.c, not_imp_comm.1 flags.i, not_imp_comm.1 flags.d, not_imp_comm.1 flags.v,
    fun changed keeps => changed.elim (absurd (flags.z keeps)) (absurd (flags.n keeps)), not_imp_comm.1 sp⟩

end Sys2Proof.Machine
end

section
/-! The fault latch after one step (spec/60_exceptions.md R300, R306, R316). An instruction and an interrupt entry fill it
only with an unclaimed access, and without the strict policy there is none (spec/20_memory.md R54); so only a fetch can. -/

namespace Sys2Proof.Machine

/-- An instruction leaves the latch as it was, or latches an unclaimed access (R306). -/
theorem fault_of_effect {i : Instr} {s t : State} (he : Effect i s t) : t.fault = s.fault ∨
    ∃ addr dir, claimed s.cfg addr = false ∧ t.fault = some (.unmappedMemoryAccess addr dir) := by
  cases he with
  | unclaimed _ _ _ claim eq | breakUnclaimed _ claim eq | jumpUnclaimed _ _ claim eq =>
    exact .inr ⟨_, _, claim, congrArg State.fault eq⟩
  | reads m _ _ _ _ _ _ eq => exact .inl (eq ▸ afterOperand_fault m s)
  | stores m _ _ _ eq | modifies m _ _ _ _ eq =>
    refine .inl (eq ▸ ?_)
    cases m <;> rfl
  | registers _ _ _ _ _ _ eq | pushes _ _ eq | calls _ _ eq | pulls _ _ _ eq | returns _ eq | returnsFromHandler eq
  | breaks _ _ eq | jumps _ _ _ eq =>
    refine .inl (eq ▸ ?_)
    simp [afterReturn]

theorem exec_fault_of_not_strict {i : Instr} {s t : State} (hs : s.cfg.strictUnmapped = false)
    (he : exec i s = .next t) : t.fault = s.fault := by
  rcases fault_of_effect (exec_cases he) with kept | ⟨addr, -, unclaimed, -⟩
  · exact kept
  · exact absurd (claimed_of_not_strict hs addr) (by simp [unclaimed])

theorem takeInterrupt_fault_of_not_strict {k : Interrupt} {s t : State} (hs : s.cfg.strictUnmapped = false)
    (ht : takeInterrupt k s = .next t) : t.fault = s.fault := by
  cases k with
  | nmi =>
    rw [takeInterrupt_nmi, if_pos (claimed_of_not_strict hs _)] at ht
    cases ht
    exact afterEntry_fault _ _ _ _
  | irq =>
    rw [takeInterrupt_irq, if_pos (claimed_of_not_strict hs _)] at ht
    cases ht
    exact afterEntry_fault _ _ _ _

theorem fetchInstr_error_of_not_strict {f : Fault} {s t : State} (hs : s.cfg.strictUnmapped = false)
    (hf : fetchInstr s = .error f t) : ∃ op, operandCount op = none ∧ f = .illegalOpcode op s.pc := by
  rcases fetchInstr_cases s with ⟨_, _, _, _, e⟩ | ⟨_, _, _, _, e, why⟩
  · cases e.symm.trans hf
  · cases e.symm.trans hf
    rcases why with ⟨addr, unclaimed, -⟩ | illegal
    · exact absurd (claimed_of_not_strict hs addr) (by simp [unclaimed])
    · exact illegal

theorem fetchInstr_ok_fault {i : Instr} {s t : State} (hf : fetchInstr s = .ok i t) : t.fault = s.fault := by
  rcases fetchInstr_cases s with ⟨_, _, _, _, e⟩ | ⟨_, _, _, _, e, _⟩
  · cases e.symm.trans hf
    rfl
  · cases e.symm.trans hf

/-- Settles O42, by the three things a step can do (`step_cases`): an entry and an instruction keep the latch clear, and a
fetch that raises names the illegal opcode at PC. -/
theorem defaultPolicyOnlyIllegalOpcode : Obligations.DefaultPolicyOnlyIllegalOpcode := by
  intro s u hs h
  have begun : (beginRequest s).cfg.strictUnmapped = false := hs
  obtain ⟨running, ⟨k, -, ht⟩ | ⟨-, i, t, hf, he⟩ | ⟨-, f, t, hf, rfl⟩⟩ := step_cases h
  · exact .inl ((takeInterrupt_fault_of_not_strict begun ht).trans running)
  · have hst : t.cfg.strictUnmapped = false := (inputsKept_of_fetchInstr_ok hf).cfg ▸ begun
    exact .inl ((exec_fault_of_not_strict hst he).trans ((fetchInstr_ok_fault hf).trans running))
  · obtain ⟨op, illegal, rfl⟩ := fetchInstr_error_of_not_strict begun hf
    exact .inr ⟨op, illegal, rfl⟩

end Sys2Proof.Machine
end

section
/-! One transaction by what its address is routed to, and the windows of the memory map (spec/20_memory.md R49 to R54). -/

namespace Sys2Proof.Machine

/-! ### A transaction with each kind of target -/

theorem memRead_of_ram {s : State} {addr : Addr} {k : Nat} (h : route s.cfg addr = .ram k) :
    memRead addr s = .ok (s.ram.read k) (s.issue (.read addr (s.ram.read k))) := by
  simp only [memRead, h]

theorem memWrite_of_ram {s : State} {addr : Addr} {k : Nat} (v : Byte) (h : route s.cfg addr = .ram k) :
    memWrite addr v s = .ok () ({ s with ram := s.ram.write k v }.issue (.write addr v)) := by
  simp only [memWrite, h]

theorem memRead_of_device {s : State} {addr : Addr} {r : DeviceReg} (h : route s.cfg addr = .device r) :
    memRead addr s = .ok (Config.deviceAnswer s.draws r)
      ({ s with draws := s.draws + 1 }.issue (.read addr (Config.deviceAnswer s.draws r))) := by
  simp only [memRead, h]

theorem memWrite_of_device {s : State} {addr : Addr} {r : DeviceReg} (v : Byte) (h : route s.cfg addr = .device r) :
    memWrite addr v s = .ok () (s.issue (.write addr v)) := by
  simp only [memWrite, h]

theorem delivered_read_of_device {c : Config} {addr : Addr} {r : DeviceReg} (v : Byte) (h : route c addr = .device r) :
    delivered c (.read addr v) = some (.asked r) := by
  simp only [delivered, h]

theorem delivered_write_of_device {c : Config} {addr : Addr} {r : DeviceReg} (v : Byte) (h : route c addr = .device r) :
    delivered c (.write addr v) = some (.given r v) := by
  simp only [delivered, h]

theorem memRead_of_unclaimed {s : State} {addr : Addr} (hs : s.cfg.strictUnmapped = false)
    (h : route s.cfg addr = .unclaimed) : memRead addr s = .ok 0x00 (s.issue (.read addr 0x00)) := by
  simp [memRead, h, hs]

theorem memWrite_of_unclaimed {s : State} {addr : Addr} (v : Byte) (hs : s.cfg.strictUnmapped = false)
    (h : route s.cfg addr = .unclaimed) : memWrite addr v s = .ok () (s.issue (.write addr v)) := by
  simp [memWrite, h, hs]

theorem memRead_of_prgRam {s : State} {addr : Addr} {k : Nat} (h : route s.cfg addr = .prgRam k) :
    memRead addr s = .ok (s.prgRam.read k) (s.issue (.read addr (s.prgRam.read k))) := by
  simp only [memRead, h]

theorem memWrite_of_prgRam {s : State} {addr : Addr} {k : Nat} (v : Byte) (h : route s.cfg addr = .prgRam k) :
    memWrite addr v s = .ok () ({ s with prgRam := s.prgRam.write k v }.issue (.write addr v)) := by
  simp only [memWrite, h]

theorem memRead_of_prgRom {s : State} {addr : Addr} {k : Nat} (h : route s.cfg addr = .prgRom k) :
    memRead addr s = .ok (s.cfg.prgRom.read k) (s.issue (.read addr (s.cfg.prgRom.read k))) := by
  simp only [memRead, h]

theorem memWrite_of_prgRom {s : State} {addr : Addr} {k : Nat} (v : Byte) (h : route s.cfg addr = .prgRom k) :
    memWrite addr v s = .ok () (s.issue (.write addr v)) := by
  simp only [memWrite, h]

/-- Addresses routed to one cell read as one byte (R49, R53). -/
theorem peek_eq_of_route_eq {s : State} {addr other : Addr} (h : route s.cfg other = route s.cfg addr) :
    peek s other = peek s addr := by
  simp only [peek, h]

/-! ### Internal RAM (R49) -/

theorem route_of_ram_masked {c : Config} {addr : Addr} (h : addr < 0x2000) :
    route c addr = .ram (addr &&& 0x07FF).toNat := by
  rw [route_of_ram h, and_ramMask]

/-- A reset leaves RAM alone, and so power-on ends with the RAM it began with (R330, R331). -/
theorem resetRequest_ram (s : State) : (resetRequest s).ram = s.ram := by
  rcases resetRequest_cases s with ⟨-, e⟩ | ⟨-, e⟩ <;> simp [e]

/-- Settles O6: every address below 0x2000 is routed to its masked cell. -/
theorem internalRamIsMirrored : Obligations.InternalRamIsMirrored := by
  refine ⟨fun s addr v h => ⟨?_, memRead_of_ram (route_of_ram_masked h), memWrite_of_ram v (route_of_ram_masked h)⟩,
    fun addr h => ?_, fun c => resetRequest_ram _⟩
  · rw [and_ramMask]
    exact Nat.mod_lt _ (by decide)
  · apply BitVec.eq_of_toNat_eq
    rw [and_ramMask]
    bv_omega

/-! ### The device windows (R50, R51) -/

theorem setWidth_and_pictureMask (addr : Addr) : (addr &&& 0x0007).setWidth 3 = addr.extractLsb' 0 3 := by
  apply BitVec.eq_of_toNat_eq
  have mask : addr.toNat % 8 &&& 7 = addr.toNat % 8 % 8 := Nat.and_two_pow_sub_one_eq_mod _ 3
  simp [mask]

theorem setWidth_sub_audioIoBase (addr : Addr) :
    (addr - 0x4000).setWidth 5 = addr.extractLsb' 0 5 := by
  apply BitVec.eq_of_toNat_eq
  rw [BitVec.toNat_setWidth, BitVec.extractLsb'_toNat, Nat.shiftRight_zero]
  bv_omega

/-- A transaction with a device, and what it delivers (R50, R51). -/
theorem transactions_of_device {s : State} {addr : Addr} {r : DeviceReg} (v : Byte) (h : route s.cfg addr = .device r) :
    memRead addr s = .ok (Config.deviceAnswer s.draws r)
      ({ s with draws := s.draws + 1 }.issue (.read addr (Config.deviceAnswer s.draws r))) ∧
    memWrite addr v s = .ok () (s.issue (.write addr v)) ∧
    delivered s.cfg (.read addr v) = some (.asked r) ∧ delivered s.cfg (.write addr v) = some (.given r v) :=
  ⟨memRead_of_device h, memWrite_of_device v h, delivered_read_of_device v h, delivered_write_of_device v h⟩

/-- Settles O7: each window is routed to its device's register. -/
theorem deviceWindowsReachDevices : Obligations.DeviceWindowsReachDevices := by
  constructor <;> intro s addr v h h'
  · exact transactions_of_device v (setWidth_and_pictureMask addr ▸ route_of_picture h h')
  · exact transactions_of_device v (setWidth_sub_audioIoBase addr ▸ route_of_audioIo h h')

/-! ### The cartridge space (R52 to R54) -/

/-- A 16 KiB image is mirrored into the upper half (R53). -/
theorem route_prgRom_mirror {c : Config} {addr : Addr} (hc : c.cartPresent = true) (hk : c.prgRomSize = .kib16)
    (h : 0xC000 ≤ addr) : route c addr = route c (addr - 0x4000) := by
  rw [route_of_prgRom hc (by bv_omega), route_of_prgRom hc (by bv_omega), hk]
  simp only [prgRomBytes, Target.prgRom.injEq]
  bv_omega

theorem route_of_absentOrLow {c : Config} {addr : Addr} (h : 0x4020 ≤ addr)
    (hlow : c.cartPresent = false ∨ addr < 0x6000) : route c addr = .unclaimed :=
  hlow.elim (route_of_noCartridge h) (route_of_nromLow h)

/-- Settles O8, window by window. -/
theorem cartridgeSpaceIsNrom : Obligations.CartridgeSpaceIsNrom := by
  refine ⟨⟨rfl, rfl, rfl, rfl⟩, fun s addr v h => ⟨fun hs hlow => ?_, fun hc h6 h8 => ?_, fun hc h8 => ?_⟩⟩
  · have hr := route_of_absentOrLow h hlow
    exact ⟨memRead_of_unclaimed hs hr, memWrite_of_unclaimed v hs hr⟩
  · have hr := route_of_prgRam hc h6 h8
    exact ⟨memRead_of_prgRam hr, memWrite_of_prgRam v hr⟩
  · have hr := route_of_prgRom hc h8
    exact ⟨memRead_of_prgRom hr, memWrite_of_prgRom v hr,
      fun hk hC => peek_eq_of_route_eq (route_prgRom_mirror hc hk hC)⟩

/-- Settles O9: the unclaimed addresses are those `route` leaves unclaimed under the strict policy, and the laws of one
transaction say the rest. -/
theorem strictPolicyRaises : Obligations.StrictPolicyRaises := by
  intro s addr v
  refine ⟨?_, fun h => ⟨memRead_error h, memWrite_error v h⟩, fun h => ⟨⟨_, _, memRead_ok h⟩, _, memWrite_ok v h⟩⟩
  have below : addr ≤ 0x5FFF ↔ addr < 0x6000 := by bv_omega
  rw [claimed_eq_false, route_eq_unclaimed, below]

/-! ### A read after a write (R60, R62) -/

/-- A write that is performed leaves what `afterWrite` says. -/
theorem eq_afterWrite_of_memWrite {s t : State} {addr : Addr} {v : Byte} (h : memWrite addr v s = .ok () t) :
    t = afterWrite s addr v := by
  cases hc : claimed s.cfg addr with
  | false => cases (memWrite_error v hc).symm.trans h
  | true =>
    cases (memWrite_ok v hc).symm.trans h
    rfl

theorem peek_afterWrite_same {s : State} {addr other : Addr} (v : Byte)
    (hw : (∃ k, route s.cfg addr = .ram k) ∨ ∃ k, route s.cfg addr = .prgRam k)
    (h : route s.cfg other = route s.cfg addr) : peek (afterWrite s addr v) other = some v := by
  rcases hw with ⟨k, hk⟩ | ⟨k, hk⟩ <;> simp [peek, afterWrite, h, hk]

/-- Settles O10: a byte behind another cell stays, and so does one behind the same address if no array there is written. -/
theorem writtenByteReadsBack : Obligations.WrittenByteReadsBack := by
  intro s t addr other v h
  cases eq_afterWrite_of_memWrite h
  refine ⟨fun ⟨writable, same⟩ => peek_afterWrite_same v writable same, fun outside => ?_⟩
  by_cases same : route s.cfg other = route s.cfg addr
  · have readOnly := fun writable => outside ⟨writable, same⟩
    refine peek_eq_of_cfg_eq rfl fun k => ⟨fun hk => ?_, fun hk => ?_⟩
    · exact readOnly (.inl ⟨k, same ▸ hk⟩)
    · exact readOnly (.inr ⟨k, same ▸ hk⟩)
  · exact peek_afterWrite_other v same

end Sys2Proof.Machine
end

section
/-! Two-byte reads and the stack engine (spec/20_memory.md R42, R43, R56 to R59). -/

namespace Sys2Proof.Machine

/-- Settles O11: the laws of the two-byte reads, the word's bytes joined. -/
theorem twoByteReads : Obligations.TwoByteReads :=
  ⟨fun _ _ low high => read16_ok (by rw [claimed16, low, high]; rfl), read16zp_run, rfl⟩

/-! ### A pull after a push (R57, R58) -/

/-- A pushed byte stands at the address S named (R56). -/
theorem peek_afterPush_same (s : State) (v : Byte) : peek (afterPush s v) (stackAddr s.sp) = some v :=
  peek_afterWrite_same (s := s) v (.inl ⟨_, route_stackAddr _ _⟩) rfl

/-- A push leaves the cell of every other value of S as it was (R56). -/
theorem read_afterPush_other {s : State} {sp : Byte} (v : Byte) (h : sp ≠ s.sp) :
    (afterPush s v).ram.read (256 + sp.toNat) = s.ram.read (256 + sp.toNat) := by
  rw [afterPush_ram]
  exact Memory.read_write_other _ _ fun e => h (BitVec.eq_of_toNat_eq (Nat.add_left_cancel e))

/-- Two pulls after the two pushes of a word answer the word (R58). -/
theorem pullWord_afterPush16 (s : State) (w : Addr) : pullWord (afterPush16 s w) = w := by
  have low : pullByte (afterPush16 s w) = lowByte w := pullByte_afterPush _ _
  have high : pullByte (afterPull (afterPush16 s w)) = highByte w := by
    have top : (afterPull (afterPush16 s w)).sp + 1 = s.sp := by simp [afterPush16]
    rw [pullByte_eq, top, afterPull_ram, afterPush16, read_afterPush_other _ (by rw [afterPush_sp]; bv_omega)]
    simp
  rw [pullWord, low, high, joinBytes_highByte_lowByte]

theorem push_pull_run (s : State) (v : Byte) :
    (push v >>= fun _ => pull) s = .ok v (afterPull (afterPush s v)) := by
  rw [bind_ok (push_run s v), pull_run, pullByte_afterPush]

theorem push16_pull16_run (s : State) (w : Addr) :
    (push16 w >>= fun _ => pull16) s = .ok w (afterPull16 (afterPush16 s w)) := by
  rw [bind_ok (push16_run s w), pull16_run, pullWord_afterPush16]

/-- Settles O12: push and pull never fault, and their states are written out by `afterPush_eq` and `afterPull_eq`. -/
theorem stackEngine : Obligations.StackEngine := by
  intro s v w
  refine ⟨?_, ?_, ⟨_, push_pull_run s v, ?_⟩, rfl, ⟨_, push16_pull16_run s w, ?_⟩, fun bottom => ?_, fun top => ?_⟩
  · rw [push_run, afterPush_eq]
  · rw [pull_run, pullByte_eq, afterPull_eq]
  · simp
  · simp [afterPull16, afterPush16]
  · have cell : stackAddr s.sp = 0x0100 := by rw [bottom]; rfl
    exact ⟨_, push_run s v, by simp [bottom], cell ▸ peek_afterPush_same s v⟩
  · have cell : pullByte s = s.ram.read 0x0100 := by rw [pullByte_eq, top]; rfl
    exact ⟨_, cell ▸ pull_run s, by simp [top]⟩

end Sys2Proof.Machine
end

section
/-! The decoder and the encoder are two readings of one table (spec/30_encoding.md R70, R80 to R83): a cell with an
instruction and its operand bytes is what decoding takes off the front of a list, and what encoding writes. -/

namespace Sys2Proof.Machine

/-! ### The cells of the table (R70, R80, R81) -/

/-- A cell of the table, an instruction it holds, and that instruction's operand bytes, low byte first (R70, R81). -/
inductive CellReads : TableCell → Instr → List Byte → Prop
  | bare (i : Instr) : CellReads (.bare i) i []
  | oneByte (mk : Byte → Instr) (b : Byte) : CellReads (.oneByte mk) (mk b) [b]
  | twoBytes (mk : Addr → Instr) (w : Addr) : CellReads (.twoBytes mk) (mk w) (wordBytes w)

@[simp] theorem wordBytes_joinBytes (hi lo : Byte) : wordBytes (joinBytes hi lo) = [lo, hi] := by
  simp [wordBytes]

/-- An opcode without an instruction is rejected by name, whatever follows it (R83). -/
theorem decode_illegal {op : Byte} (h : opcodeTable op = .illegal) (rest : List Byte) :
    decode (op :: rest) = .error (.illegalOpcode op) := by
  simp only [decode, h]

theorem decode_of_cellReads {op : Byte} {i : Instr} {operand : List Byte} (h : CellReads (opcodeTable op) i operand)
    (rest : List Byte) : decode (op :: operand ++ rest) = .ok (i, rest) := by
  generalize hc : opcodeTable op = cell at h
  cases h with
  | bare i => simp [decode, hc]
  | oneByte mk b => simp [decode, hc]
  | twoBytes mk w => simp [decode, hc, wordBytes]

/-- A list that decodes is an opcode, the operand bytes its cell asks for, and what is left over (R77, R82). -/
theorem cellReads_of_decode {bytes rest : List Byte} {i : Instr} (h : decode bytes = .ok (i, rest)) :
    ∃ op operand, bytes = op :: operand ++ rest ∧ CellReads (opcodeTable op) i operand := by
  unfold decode at h
  split at h
  case h_1 => cases h
  case h_2 op tail =>
    refine ⟨op, ?_⟩
    split at h <;> cases h
    case h_2 hc => exact ⟨[], rfl, hc ▸ .bare i⟩
    case h_3 mk b hc => exact ⟨[b], rfl, hc ▸ .oneByte mk b⟩
    case h_4 mk lo hi hc =>
      exact ⟨[lo, hi], rfl, hc ▸ wordBytes_joinBytes hi lo ▸ .twoBytes mk _⟩

/-- The encoder writes the opcode of a cell that holds the instruction, and the bytes that cell asks for. -/
theorem cellReads_of_encode (i : Instr) :
    ∃ op operand, encode i = op :: operand ∧ CellReads (opcodeTable op) i operand := by
  cases i with
  | brk | php | clc | plp | sec | rti | pha | cli | rts | pla | sei | dey | txa | tya | txs | tay | tax | clv | tsx | iny
  | dex | cld | inx | nop | sed | aslAcc | rolAcc | lsrAcc | rorAcc =>
    exact ⟨_, _, rfl, .bare _⟩
  | oraImm b | andImm b | eorImm b | adcImm b | ldyImm b | ldxImm b | ldaImm b | cpyImm b | cmpImm b | cpxImm b | sbcImm b
  | oraZp b | aslZp b | bitZp b | andZp b | rolZp b | eorZp b | lsrZp b | adcZp b | rorZp b | styZp b | staZp b | stxZp b
  | ldyZp b | ldaZp b | ldxZp b | cpyZp b | cmpZp b | decZp b | cpxZp b | sbcZp b | incZp b
  | oraZpX b | aslZpX b | andZpX b | rolZpX b | eorZpX b | lsrZpX b | adcZpX b | rorZpX b | styZpX b | staZpX b | ldyZpX b
  | ldaZpX b | cmpZpX b | decZpX b | sbcZpX b | incZpX b | stxZpY b | ldxZpY b
  | oraIndX b | andIndX b | eorIndX b | adcIndX b | staIndX b | ldaIndX b | cmpIndX b | sbcIndX b
  | oraIndY b | andIndY b | eorIndY b | adcIndY b | staIndY b | ldaIndY b | cmpIndY b | sbcIndY b
  | bpl b | bmi b | bvc b | bvs b | bcc b | bcs b | bne b | beq b =>
    exact ⟨_, _, rfl, .oneByte _ b⟩
  | oraAbs w | aslAbs w | bitAbs w | andAbs w | rolAbs w | eorAbs w | lsrAbs w | adcAbs w | rorAbs w | styAbs w | staAbs w
  | stxAbs w | ldyAbs w | ldaAbs w | ldxAbs w | cpyAbs w | cmpAbs w | decAbs w | cpxAbs w | sbcAbs w | incAbs w
  | oraAbsX w | aslAbsX w | andAbsX w | rolAbsX w | eorAbsX w | lsrAbsX w | adcAbsX w | rorAbsX w | staAbsX w | ldyAbsX w
  | ldaAbsX w | cmpAbsX w | decAbsX w | sbcAbsX w | incAbsX w
  | oraAbsY w | andAbsY w | eorAbsY w | adcAbsY w | staAbsY w | ldaAbsY w | ldxAbsY w | cmpAbsY w | sbcAbsY w
  | jsr w | jmpAbs w | jmpInd w =>
    exact ⟨_, _, rfl, .twoBytes _ w⟩

/-- Every cell of the table is the encoder's cell of the instruction it holds, so no instruction stands in two cells. -/
theorem encode_of_cellReads {op : Byte} {i : Instr} {operand : List Byte} (h : CellReads (opcodeTable op) i operand) :
    encode i = op :: operand := by
  unfold opcodeTable at h
  split at h <;> cases h <;> rfl

theorem decode_encode (i : Instr) (rest : List Byte) : decode (encode i ++ rest) = .ok (i, rest) := by
  obtain ⟨op, operand, he, hc⟩ := cellReads_of_encode i
  rw [he]
  exact decode_of_cellReads hc rest

theorem encode_of_decode {bytes rest : List Byte} {i : Instr} (h : decode bytes = .ok (i, rest)) :
    bytes = encode i ++ rest := by
  obtain ⟨op, operand, rfl, hc⟩ := cellReads_of_decode h
  rw [encode_of_cellReads hc]

/-- Settles O1: the cell an instruction is encoded by is the one its bytes are decoded with. -/
theorem decodeOfEncode : Obligations.DecodeOfEncode := decode_encode

/-- Settles O2: decoding takes off the front of a list what a cell reads, and that is the instruction's encoding. -/
theorem encodeOfDecode : Obligations.EncodeOfDecode := fun _ _ _ => encode_of_decode

/-! ### Illegal opcodes, and words of the spec (R72, R80, R83) -/

theorem operandCount_eq_none_iff_illegal {op : Byte} : operandCount op = none ↔ opcodeTable op = .illegal := by
  unfold operandCount
  cases opcodeTable op <;> simp

/-- Settles O3: the listed opcodes are checked against the table row by row, and an empty cell rejects its opcode by name. -/
theorem illegalOpcodesOfTable : Obligations.IllegalOpcodesOfTable :=
  ⟨forall_byte_of_nibbles (by decide +kernel), fun _ rest h => decode_illegal (operandCount_eq_none_iff_illegal.1 h) rest,
    assigns_of_rows (by decide +kernel) (by decide +kernel)⟩

/-- Settles O4: each word is an instruction's encoding with nothing after it, and 0x89 is an empty cell. -/
theorem decodedWordsOfSpec : Obligations.DecodedWordsOfSpec :=
  ⟨decode_encode (.ldaImm 0x2A) [], decode_encode (.jmpAbs 0x1234) [], decode_encode (.jmpInd 0x02FF) [],
    decode_encode (.staIndY 0x40) [], decode_encode (.bne 0xFE) [], decode_encode (.stxZpY 0xF0) [],
    decode_encode .rolAcc [], decode_encode .nop [], decode_encode .brk [], decode_illegal rfl [0x10]⟩

/-! ### Modes and encodings (R70, R101, R119) -/

/-- The law of the table's rows, of every instruction (R70, R80). -/
theorem tableRow_of_instr (i : Instr) : Laws.TableRow.Statement i := by
  cases i <;> exact ⟨_, _, rfl, rfl, rfl, rfl⟩

theorem form_of_instrMode {i : Instr} {m : Mode} (h : instrMode i = some m) : i.form = modeForm m := by
  unfold instrMode at h
  split at h <;> cases h <;> rfl

/-- After the opcode stand the bytes of the mode (R101). -/
theorem encode_of_instrMode {i : Instr} {m : Mode} (h : instrMode i = some m) : ∃ op, encode i = op :: modeBytes m := by
  unfold instrMode at h
  split at h <;> cases h <;> exact ⟨_, rfl⟩

theorem instrMode_eq_none_iff (i : Instr) :
    instrMode i = none ↔ i.form ∈ ([.implied, .relative, .absoluteTarget, .indirectPointer] : List Form) := by
  cases h : instrMode i with
  | some m =>
    rw [form_of_instrMode h]
    cases m <;> simp [modeForm]
  | none =>
    unfold instrMode at h
    split at h <;> cases h <;> simp [Instr.form]

theorem modeLength_eq (m : Mode) : modeLength m = 1 + operandBytes (modeForm m) := by
  cases m <;> rfl

/-- Settles O5: an instruction's mode has its form and its operand bytes; the table's row says the rest. -/
theorem modeMatchesEncoding : Obligations.ModeMatchesEncoding := by
  refine fun i => ⟨fun m hm => ?_, instrMode_eq_none_iff i⟩
  have form := form_of_instrMode hm
  obtain ⟨op, he⟩ := encode_of_instrMode hm
  obtain ⟨op', operand, he', row, -, length⟩ := tableRow_of_instr i
  cases he.symm.trans he'
  exact ⟨form.symm, by rw [instrLength, form, modeLength_eq], length, op, he, form ▸ row⟩

end Sys2Proof.Machine
end

section
/-! A step without an interrupt is the meaning of the instruction whose bytes it fetches (spec/30_encoding.md R84,
spec/40_addressing.md R101). -/

namespace Sys2Proof.Machine

/-- Settles O50: the answered bytes are as many as the opcode asks for, so they decode, and the fetch answers what they
decode to. -/
theorem stepRunsFetchedInstruction : Obligations.StepRunsFetchedInstruction := by
  intro s n running noInterrupt count claim
  obtain ⟨i, hd⟩ := decode_of_operandCount (rest := answers n (s.pc + 1) (afterRead (beginRequest s) s.pc)) count
    (length_answers _ _ _)
  exact ⟨afterReads_eq (n + 1) s.pc (beginRequest s), i, hd,
    step_fetch_ok running noInterrupt (fetchInstr_ok (s := beginRequest s) count claim hd)⟩

/-- Settles O49: bytes that stand at PC are fetched as what they decode to. -/
theorem stepRunsDecodedInstruction : Obligations.StepRunsDecodedInstruction := by
  intro s bytes i running noInterrupt hd holds
  have begun : HoldsAt bytes (beginRequest s).pc (beginRequest s) := HoldsAt.congr (s := s) (fun _ => rfl) holds
  exact step_fetch_ok running noInterrupt (fetchInstr_of_holdsAt hd begun)

end Sys2Proof.Machine
end

section
/-! The addressing modes and their locations (spec/40_addressing.md R100 to R118). -/

namespace Sys2Proof.Machine

/-- A mode without a pointer resolves with no transaction, and the state stays as it is (R118). -/
theorem resolve_of_modeReads_nil {m : Mode} {s : State} (h : modeReads m s = []) :
    resolve m s = .ok (modeLoc m s) s := by
  rw [resolve_run, afterResolve, h, List.append_nil]

/-- Settles O13: the eight modes without a pointer issue no transaction, and the two indirect ones read their pointer. -/
theorem addressOfEachMode : Obligations.AddressOfEachMode := fun s b _ =>
  ⟨resolve_of_modeReads_nil rfl, resolve_of_modeReads_nil rfl, resolve_of_modeReads_nil rfl,
    resolve_of_modeReads_nil rfl, resolve_of_modeReads_nil rfl, resolve_run (.indexedIndirectX b) s,
    resolve_run (.indirectIndexedY b) s, resolve_of_modeReads_nil rfl, resolve_of_modeReads_nil rfl,
    resolve_of_modeReads_nil rfl⟩

/-- The instructions with an immediate operand are loads, compares and the two-operand ALU instructions (R102). -/
theorem mnemonic_of_instrMode_immediate {i : Instr} {v : Byte} (h : instrMode i = some (.immediate v)) :
    i.mnemonic ∈ ([.lda, .ldx, .ldy, .ora, .and, .eor, .adc, .sbc, .cmp, .cpx, .cpy] : List Mnemonic) := by
  unfold instrMode at h
  split at h <;> cases h <;> simp [Instr.mnemonic]

/-- None of the mnemonics with an immediate form writes a location (R117). -/
theorem notWriting_of_immediateMnemonic {n : Mnemonic}
    (h : n ∈ ([.lda, .ldx, .ldy, .ora, .and, .eor, .adc, .sbc, .cmp, .cpx, .cpy] : List Mnemonic)) :
    n ∉ ([.sta, .stx, .sty, .asl, .lsr, .rol, .ror, .inc, .dec] : List Mnemonic) := by
  revert n
  decide

/-- Settles O14: a location is read and written by its own case, and the mnemonics with an immediate form are no
writers. -/
theorem readingAndWritingLocations : Obligations.ReadingAndWritingLocations :=
  ⟨fun _ _ _ => ⟨rfl, rfl, rfl, rfl, rfl⟩, fun _ _ h =>
    notWriting_of_immediateMnemonic (mnemonic_of_instrMode_immediate h)⟩

end Sys2Proof.Machine
end

section
/-! The instructions by mnemonic: one operation for all opcodes of a mnemonic, run at the mode of the instruction
(spec/40_addressing.md R119, spec/41_load_store.md, spec/42_alu.md, spec/43_rmw.md). A law of an operation becomes a law of
`exec` here, once for every form. -/

namespace Sys2Proof.Machine

/-- The operation of a mnemonic whose instructions have one of the ten modes. -/
def operation : Mnemonic → Option (Mode → Bus Unit)
  | .lda => some lda
  | .ldx => some ldx
  | .ldy => some ldy
  | .sta => some sta
  | .stx => some stx
  | .sty => some sty
  | .ora => some ora
  | .and => some andA
  | .eor => some eor
  | .adc => some adc
  | .sbc => some sbc
  | .cmp => some cmp
  | .cpx => some cpx
  | .cpy => some cpy
  | .bit => some bitTest
  | .asl => some asl
  | .lsr => some lsr
  | .rol => some rol
  | .ror => some ror
  | .inc => some inc
  | .dec => some dec
  | _ => none

/-- An instruction with a mode runs its mnemonic's operation at that mode. -/
theorem exec_eq_runInstr {i : Instr} {m : Mode} {body : Mode → Bus Unit} (hm : instrMode i = some m)
    (hb : operation i.mnemonic = some body) : exec i = runInstr (body m) := by
  cases i <;> cases hm <;> cases hb <;> rfl

/-- Every instruction of a mnemonic with an operation has a mode. -/
theorem exists_instrMode {i : Instr} {mnemonics : List Mnemonic} (h : ∀ n ∈ mnemonics, (operation n).isSome)
    (hi : i.mnemonic ∈ mnemonics) : ∃ m, instrMode i = some m := by
  have operates := h _ hi
  cases hm : instrMode i with
  | some m => exact ⟨m, rfl⟩
  | none =>
    unfold instrMode at hm
    split at hm <;> cases hm <;> cases operates

theorem exec_next {i : Instr} {m : Mode} {body : Mode → Bus Unit} {s t : State} (hm : instrMode i = some m)
    (hb : operation i.mnemonic = some body) (ok : body m s = .ok () t) : exec i s = .next t := by
  rw [exec_eq_runInstr hm hb, runInstr_ok ok]

theorem instrLength_of_instrMode {i : Instr} {m : Mode} (h : instrMode i = some m) : instrLength i = modeLength m :=
  ((modeMatchesEncoding i).1 m h).2.1.symm

/-- Only the shifts and rotates have an accumulator form (R103). -/
theorem mnemonic_of_instrMode_accumulator {i : Instr} (h : instrMode i = some .accumulator) :
    i.mnemonic ∈ ([.asl, .lsr, .rol, .ror] : List Mnemonic) := by
  unfold instrMode at h
  split at h <;> cases h <;> simp [Instr.mnemonic]

/-! ### Loads (R130 to R132) -/

/-- Settles O15: the law of each load's operation, at the instruction's mode. -/
theorem loadsReadTheirOperand : Obligations.LoadsReadTheirOperand := by
  refine ⟨assigns_of_rows (by decide +kernel) (by decide +kernel), assigns_of_rows (by decide +kernel) (by decide +kernel),
    assigns_of_rows (by decide +kernel) (by decide +kernel), fun i s load => ?_⟩
  obtain ⟨m, hm⟩ := exists_instrMode (by decide) load
  rw [instrLength_of_instrMode hm]
  exact ⟨m, hm, fun claim =>
    ⟨fun h => exec_next hm (congrArg operation h) (lda_ok claim), fun h => exec_next hm (congrArg operation h) (ldx_ok claim),
      fun h => exec_next hm (congrArg operation h) (ldy_ok claim)⟩⟩

/-! ### Stores (R133 to R135) -/

/-- The instructions that write a register to memory (R133 to R135). -/
def storeMnemonics : List Mnemonic := [.sta, .stx, .sty]

/-- No store is among the mnemonics with an immediate form or with an accumulator form (R102, R103). -/
theorem not_immediate_not_accumulator_of_store {n : Mnemonic} (h : n ∈ storeMnemonics) :
    n ∉ ([.lda, .ldx, .ldy, .ora, .and, .eor, .adc, .sbc, .cmp, .cpx, .cpy] : List Mnemonic) ∧
    n ∉ ([.asl, .lsr, .rol, .ror] : List Mnemonic) := by
  revert n
  decide

/-- The location of a store is an address in every state. -/
theorem modeLoc_of_store {i : Instr} {m : Mode} (store : i.mnemonic ∈ storeMnemonics) (hm : instrMode i = some m)
    (s : State) : ∃ addr, modeLoc m s = .mem addr := by
  obtain ⟨notImmediate, notAccumulator⟩ := not_immediate_not_accumulator_of_store store
  cases m with
  | immediate v => exact absurd (mnemonic_of_instrMode_immediate hm) notImmediate
  | accumulator => exact absurd (mnemonic_of_instrMode_accumulator hm) notAccumulator
  | zeroPage | zeroPageX | zeroPageY | indexedIndirectX | indirectIndexedY | absolute | absoluteX | absoluteY =>
    exact ⟨_, rfl⟩

/-- A store's only transaction besides the pointer reads of its mode is one write (R47). -/
theorem afterStore_of_mem {m : Mode} {s : State} {addr : Addr} (v : Byte) (h : modeLoc m s = .mem addr) :
    afterStore m v s = afterWrite (afterResolve m s) addr v := by
  rw [afterStore, h, afterLocWrite]

/-- Settles O16: the law of each store's operation, at the instruction's mode, which names an address. -/
theorem storesWriteTheirRegister : Obligations.StoresWriteTheirRegister := by
  refine ⟨assigns_of_rows (by decide +kernel) (by decide +kernel), assigns_of_rows (by decide +kernel) (by decide +kernel),
    assigns_of_rows (by decide +kernel) (by decide +kernel), fun i s store => ?_⟩
  obtain ⟨m, hm⟩ := exists_instrMode (by decide) store
  obtain ⟨addr, loc⟩ := modeLoc_of_store store hm s
  rw [instrLength_of_instrMode hm]
  exact ⟨m, hm, fun claim =>
    ⟨fun h => exec_next hm (congrArg operation h) (sta_ok claim), fun h => exec_next hm (congrArg operation h) (stx_ok claim),
      fun h => exec_next hm (congrArg operation h) (sty_ok claim),
      fun v => ⟨addr, loc, by rw [afterStore_of_mem v loc, afterWrite_bus, afterResolve_bus]⟩⟩⟩

/-- The operation of a store writes a register, which neither the resolution nor the move of PC changes. -/
theorem operation_of_store {n : Mnemonic} (h : n ∈ storeMnemonics) :
    ∃ r : State → Byte, operation n = some (store · r) ∧ ∀ s bus pc, r { s with bus := bus, pc := pc } = r s := by
  cases n
  case sta => exact ⟨State.a, rfl, fun _ _ _ => rfl⟩
  case stx => exact ⟨State.x, rfl, fun _ _ _ => rfl⟩
  case sty => exact ⟨State.y, rfl, fun _ _ _ => rfl⟩
  all_goals exact absurd h (by decide)

/-- Everything a store can do at an address: write a byte there, or latch the access (R306). -/
theorem exec_store_cases {i : Instr} {m : Mode} {s t : State} {addr : Addr} (store : i.mnemonic ∈ storeMnemonics)
    (hm : instrMode i = some m) (he : exec i s = .next t) (loc : modeLoc m s = .mem addr) :
    (∃ v pc, t = { afterWrite (afterResolve m s) addr v with pc := pc }) ∨
    (claimed s.cfg addr = false ∧ t = unclaimedOperand s m addr .write) := by
  obtain ⟨r, hb, hr⟩ := operation_of_store store
  rw [exec_eq_runInstr hm hb] at he
  rcases store_cases he (hr s) with ⟨-, rfl⟩ | ⟨other, loc', unclaimed, rfl⟩
  · exact .inl ⟨r s, _, by rw [afterStore_of_mem _ loc]⟩
  · cases loc.symm.trans loc'
    exact .inr ⟨unclaimed, rfl⟩

theorem modeLoc_of_resolve {m : Mode} {s t : State} {loc : Loc} (h : resolve m s = .ok loc t) : modeLoc m s = loc := by
  rw [resolve_run] at h
  injection h

/-- Settles O45: a performed write reaches the cell of its address alone, and a refused one reaches none. -/
theorem frameOfStores : Obligations.FrameOfStores := by
  intro i m s t u addr store hm he resolved
  rcases exec_store_cases store hm he (modeLoc_of_resolve resolved) with ⟨v, pc, rfl⟩ | ⟨unclaimed, rfl⟩
  · exact ⟨rfl, rfl, rfl, rfl, rfl, rfl, fun _ => peek_afterWrite_other (s := afterResolve m s) v, ⟨rfl, rfl, rfl, rfl⟩,
      fun _ => rfl⟩
  · exact ⟨rfl, rfl, rfl, rfl, rfl, rfl, fun _ _ => rfl, ⟨rfl, rfl, rfl, rfl⟩, fun claim => by simp [unclaimed] at claim⟩

/-! ### Loads, logic, arithmetic, compares and BIT (R130 to R132, R150 to R158) -/

/-- The instructions that read their operand and then change registers only. -/
def operandReaders : List Mnemonic := [.lda, .ldx, .ldy, .ora, .and, .eor, .adc, .sbc, .cmp, .cpx, .cpy, .bit]

/-- From `s` to `t` no byte of memory changes, and of A, X and Y only what a reader of the mnemonic loads or computes. -/
structure ReaderFrame (n : Mnemonic) (s t : State) : Prop where
  a : n ∉ ([.lda, .ora, .and, .eor, .adc, .sbc] : List Mnemonic) → t.a = s.a
  x : n ≠ .ldx → t.x = s.x
  y : n ≠ .ldy → t.y = s.y
  memory : SameMemory s t

namespace ReaderFrame

variable {n : Mnemonic}

theorem trans {s t u : State} (h : ReaderFrame n s t) (h' : ReaderFrame n t u) : ReaderFrame n s u where
  a hn := (h'.a hn).trans (h.a hn)
  x hn := (h'.x hn).trans (h.x hn)
  y hn := (h'.y hn).trans (h.y hn)
  memory addr := (h'.memory addr).trans (h.memory addr)

theorem accumulator (h : n ∈ ([.lda, .ora, .and, .eor, .adc, .sbc] : List Mnemonic)) (s : State) (v : Byte) (p : Status) :
    ReaderFrame n s { s with a := v, p := p } :=
  ⟨absurd h, fun _ => rfl, fun _ => rfl, fun _ => rfl⟩

theorem indexX (s : State) (v : Byte) (p : Status) : ReaderFrame .ldx s { s with x := v, p := p } :=
  ⟨fun _ => rfl, absurd rfl, fun _ => rfl, fun _ => rfl⟩

theorem indexY (s : State) (v : Byte) (p : Status) : ReaderFrame .ldy s { s with y := v, p := p } :=
  ⟨fun _ => rfl, fun _ => rfl, absurd rfl, fun _ => rfl⟩

theorem flags (s : State) (p : Status) : ReaderFrame n s { s with p := p } :=
  ⟨fun _ => rfl, fun _ => rfl, fun _ => rfl, fun _ => rfl⟩

/-- The pointer reads of a mode and the read of its operand change no byte (R46). -/
theorem afterOperand (m : Mode) (s : State) (pc : Addr) : ReaderFrame n s { afterOperand m s with pc := pc } :=
  ⟨fun _ => afterOperand_a m s, fun _ => afterOperand_x m s, fun _ => afterOperand_y m s, fun _ => by cases m <;> rfl⟩

theorem unclaimedOperand (s : State) (m : Mode) (addr : Addr) (dir : Dir) :
    ReaderFrame n s (unclaimedOperand s m addr dir) :=
  ⟨fun _ => rfl, fun _ => rfl, fun _ => rfl, fun _ => rfl⟩

end ReaderFrame

/-- The operation of a reader is one operand read and a change of its own registers. -/
theorem operation_of_reader {n : Mnemonic} (h : n ∈ operandReaders) :
    ∃ (body : Mode → Bus Unit) (g : Byte → State → State), operation n = some body ∧
      (∀ m, body m = readOperand m >>= fun v => modify (g v)) ∧
      ∀ v s, ReaderFrame n s (g v s) ∧ (g v s).fault = s.fault := by
  cases n
  case lda | ora | and | eor | adc | sbc =>
    exact ⟨_, _, rfl, fun _ => rfl, fun _ s => ⟨.accumulator (by simp) s _ _, rfl⟩⟩
  case ldx => exact ⟨_, _, rfl, fun _ => rfl, fun _ s => ⟨.indexX s _ _, rfl⟩⟩
  case ldy => exact ⟨_, _, rfl, fun _ => rfl, fun _ s => ⟨.indexY s _ _, rfl⟩⟩
  case cmp | cpx | cpy | bit => exact ⟨_, _, rfl, fun _ => rfl, fun _ s => ⟨.flags s _, rfl⟩⟩
  all_goals exact absurd h (by decide)

/-- A reader changes its own registers after the read, or latches the refused read and changes none (R306). -/
theorem readerFrame_of_exec {i : Instr} {m : Mode} {s t : State} (reader : i.mnemonic ∈ operandReaders)
    (hm : instrMode i = some m) (he : exec i s = .next t) :
    ReaderFrame i.mnemonic s t ∧ (operandClaimed m s = true → t.fault = s.fault) := by
  obtain ⟨body, g, hb, hbody, change⟩ := operation_of_reader reader
  rw [exec_eq_runInstr hm hb] at he
  rcases operandThen_cases he (hbody m) with ⟨-, rfl⟩ | ⟨addr, loc, unclaimed, rfl⟩
  · obtain ⟨frame, latch⟩ := change (operandByte m s)
      { afterOperand m s with pc := s.pc + BitVec.ofNat 16 (modeLength m) }
    exact ⟨(ReaderFrame.afterOperand m s _).trans frame, fun _ => latch.trans (afterOperand_fault m s)⟩
  · refine ⟨.unclaimedOperand s m addr .read, fun claim => ?_⟩
    rw [operandClaimed, loc, locClaimed, unclaimed] at claim
    cases claim

/-- What the lists of R22 and R25 say of the readers. -/
theorem writers_of_reader {n : Mnemonic} (h : n ∈ operandReaders) :
    n ∉ stackPointerWriters ∧ n ∉ interruptWriters ∧ n ∉ decimalWriters ∧
    (n ∉ ([.adc, .sbc, .cmp, .cpx, .cpy] : List Mnemonic) → n ∉ carryWriters) ∧
    (n ∉ ([.adc, .sbc, .bit] : List Mnemonic) → n ∉ overflowWriters) := by
  revert n
  decide

/-- Settles O44: S and the flags by the lists of their writers, A, X, Y, memory and the latch by the shape of the
operation. -/
theorem frameOfLoadsAndArithmetic : Obligations.FrameOfLoadsAndArithmetic := by
  intro i s t reader he
  obtain ⟨keepsS, keepsI, keepsD, keepsC, keepsV⟩ := writers_of_reader reader
  obtain ⟨flags, sp⟩ := byWriters_of_exec he
  have kept := inputsKept_of_exec he
  obtain ⟨m, hm⟩ := exists_instrMode (by decide) reader
  obtain ⟨frame, latch⟩ := readerFrame_of_exec reader hm he
  refine ⟨sp keepsS, flags.i keepsI, flags.d keepsD, frame.a, frame.x, frame.y, fun h => flags.c (keepsC h),
    fun h => flags.v (keepsV h), frame.memory, ⟨kept.cfg, kept.irq, kept.nmi, kept.nmiPending⟩, fun m' hm' => ?_⟩
  cases hm.symm.trans hm'
  exact latch

end Sys2Proof.Machine
end

section
/-! The logical, arithmetic, compare and bit-test instructions (spec/42_alu.md R150 to R158): the numbers behind ADC and SBC,
then each statement from the law of its operation, at the mode of the instruction. -/

namespace Sys2Proof.Machine

/-! ### The numbers behind ADC and SBC (R153, R154) -/

theorem and_0x80_ne_zero {v : Byte} : v &&& 0x80 ≠ 0 ↔ v.getLsbD 7 = true := by
  have mask : v &&& 0x80 = if v.getLsbD 7 then 0x80 else 0 := BitVec.and_twoPow v 7
  rw [mask]
  cases v.getLsbD 7 <;> decide

/-- The two readings of V: as a comparison of the three bits 7, and as the mask of R153. -/
theorem overflow_iff_mask (a v r : Byte) :
    (a.getLsbD 7 == v.getLsbD 7 && r.getLsbD 7 != a.getLsbD 7) = true ↔ ((a ^^^ r) &&& (v ^^^ r) &&& 0x80) ≠ 0 := by
  rw [and_0x80_ne_zero, BitVec.getLsbD_and, BitVec.getLsbD_xor, BitVec.getLsbD_xor]
  cases a.getLsbD 7 <;> cases v.getLsbD 7 <;> cases r.getLsbD 7 <;> decide

/-- The one's complement of SBC as a difference (R154). -/
theorem not_eq_0xFF_sub (v : Byte) : ~~~v = 0xFF - v := (BitVec.allOnes_sub_eq_not v).symm

theorem toNat_0xFF_sub (v : Byte) : (0xFF - v).toNat = 255 - v.toNat := by
  rw [← not_eq_0xFF_sub, BitVec.toNat_not]

/-- The sum of SBC carries out exactly when the difference needs no borrow (R154). -/
theorem complement_sum_carries_iff (a v : Byte) (c : Bool) :
    a.toNat + (0xFF - v).toNat + c.toNat > 255 ↔ (0 : Int) ≤ a.toNat - v.toNat - (1 - c.toNat) := by
  rw [toNat_0xFF_sub]
  omega

/-- Adding the one's complement and Carry subtracts the operand and the borrow (R154). -/
theorem complement_sum_eq_difference (a v : Byte) (c : Bool) :
    BitVec.ofNat 8 (a.toNat + (0xFF - v).toNat + c.toNat) = a - v - BitVec.ofNat 8 (1 - c.toNat) := by
  apply BitVec.eq_of_toNat_eq
  have carry := c.toNat_le
  rw [toNat_0xFF_sub]
  simp only [BitVec.toNat_ofNat, BitVec.toNat_sub]
  omega

/-! ### Logic (R150 to R152) -/

/-- Settles O17: the law of each logical operation, at the instruction's mode. -/
theorem logicalOperations : Obligations.LogicalOperations := by
  refine ⟨assigns_of_rows (by decide +kernel) (by decide +kernel), assigns_of_rows (by decide +kernel) (by decide +kernel),
    assigns_of_rows (by decide +kernel) (by decide +kernel), fun i s logical => ?_⟩
  obtain ⟨m, hm⟩ := exists_instrMode (by decide) logical
  rw [instrLength_of_instrMode hm]
  exact ⟨m, hm, fun claim =>
    ⟨fun h => exec_next hm (congrArg operation h) (ora_ok claim), fun h => exec_next hm (congrArg operation h) (andA_ok claim),
      fun h => exec_next hm (congrArg operation h) (eor_ok claim)⟩⟩

/-! ### Addition and subtraction (R153, R154) -/

/-- Settles O18: the law of ADC, whose V is the mask's bit. -/
theorem addWithCarry : Obligations.AddWithCarry := by
  refine ⟨assigns_of_rows (by decide +kernel) (by decide +kernel), fun i s add => ?_⟩
  obtain ⟨m, hm⟩ := exists_instrMode (by decide) (List.mem_singleton.2 add)
  rw [instrLength_of_instrMode hm]
  exact ⟨m, hm, fun claim => exec_next hm (congrArg operation add) (adc_ok claim), overflow_iff_mask _ _ _⟩

/-- Settles O19: the law of SBC, whose complement is a difference from 0xFF, and the sum read as a subtraction. -/
theorem subtractWithBorrow : Obligations.SubtractWithBorrow := by
  refine ⟨assigns_of_rows (by decide +kernel) (by decide +kernel), fun i s subtract => ?_⟩
  obtain ⟨m, hm⟩ := exists_instrMode (by decide) (List.mem_singleton.2 subtract)
  rw [instrLength_of_instrMode hm]
  refine ⟨m, hm, fun claim => ?_, complement_sum_carries_iff _ _ _, complement_sum_eq_difference _ _ _⟩
  have law := sbc_ok claim
  rw [not_eq_0xFF_sub] at law
  exact exec_next hm (congrArg operation subtract) law

/-! ### Compares and BIT (R155 to R158) -/

/-- Settles O20: the law of each compare, at the instruction's mode. -/
theorem compares : Obligations.Compares := by
  refine ⟨assigns_of_rows (by decide +kernel) (by decide +kernel), assigns_of_rows (by decide +kernel) (by decide +kernel),
    assigns_of_rows (by decide +kernel) (by decide +kernel), fun i s comparing => ?_⟩
  obtain ⟨m, hm⟩ := exists_instrMode (by decide) comparing
  rw [instrLength_of_instrMode hm]
  exact ⟨m, hm, fun claim =>
    ⟨fun h => exec_next hm (congrArg operation h) (cmp_ok claim), fun h => exec_next hm (congrArg operation h) (cpx_ok claim),
      fun h => exec_next hm (congrArg operation h) (cpy_ok claim)⟩⟩

/-- Settles O21: the law of BIT, at the instruction's mode. (`bitTest` is the operation itself.) -/
theorem bitTestHolds : Obligations.BitTest := by
  refine ⟨assigns_of_rows (by decide +kernel) (by decide +kernel), fun i s testing => ?_⟩
  obtain ⟨m, hm⟩ := exists_instrMode (by decide) testing
  rw [instrLength_of_instrMode hm]
  exact ⟨m, hm, fun claim h => exec_next hm (congrArg operation h) (bitTest_ok claim)⟩

end Sys2Proof.Machine
end

section
/-! The read-modify-write instructions and the instructions without an operand in memory (spec/43_rmw.md R180 to R190): each
result from the law of its operation, and the frames, in which S and the flags go by the lists of their writers and the rest
by the shape of the instruction. -/

namespace Sys2Proof.Machine

/-! ### Results of the shifts, rotates, INC and DEC (R180 to R186) -/

/-- The only transactions besides the pointer reads of the mode are one read and one write (R180). -/
theorem afterModify_bus_of_mem {m : Mode} {s : State} {addr : Addr} (v : Byte) (loc : modeLoc m s = .mem addr) :
    (afterModify m v s).bus = s.bus ++ modeReads m s ++ [.read addr (operandByte m s), .write addr v] := by
  have byte : operandByte m s = answer (afterResolve m s) addr := by rw [operandByte, loc]; rfl
  rw [afterModify, afterOperand, loc, byte]
  simp [afterLocWrite, afterLocRead]

/-- Settles O22: the law of the read-modify-write pattern, with the result and the carry of each operation. -/
theorem shiftsAndRotates : Obligations.ShiftsAndRotates := by
  refine ⟨assigns_of_rows (by decide +kernel) (by decide +kernel), assigns_of_rows (by decide +kernel) (by decide +kernel),
    assigns_of_rows (by decide +kernel) (by decide +kernel), assigns_of_rows (by decide +kernel) (by decide +kernel),
    fun i s shift => ?_⟩
  obtain ⟨m, hm⟩ := exists_instrMode (by decide) shift
  rw [instrLength_of_instrMode hm]
  exact ⟨m, hm, fun claim =>
    ⟨fun h => exec_next hm (congrArg operation h) (readModifyWrite_ok aslResult carryFromTop claim),
      fun h => exec_next hm (congrArg operation h) (readModifyWrite_ok lsrResult carryFromBottom claim),
      fun h => exec_next hm (congrArg operation h) (readModifyWrite_ok rolResult carryFromTop claim),
      fun h => exec_next hm (congrArg operation h) (readModifyWrite_ok rorResult carryFromBottom claim),
      fun v _ => afterModify_bus_of_mem v⟩⟩

/-- Settles O23: the law of the read-modify-write pattern, Carry put back as it was. -/
theorem incrementAndDecrementMemory : Obligations.IncrementAndDecrementMemory := by
  refine ⟨assigns_of_rows (by decide +kernel) (by decide +kernel), assigns_of_rows (by decide +kernel) (by decide +kernel),
    fun i s step => ?_⟩
  obtain ⟨m, hm⟩ := exists_instrMode (by decide) step
  rw [instrLength_of_instrMode hm]
  exact ⟨m, hm, fun claim =>
    ⟨fun h => exec_next hm (congrArg operation h) (readModifyWrite_ok incResult carryKept claim),
      fun h => exec_next hm (congrArg operation h) (readModifyWrite_ok decResult carryKept claim),
      fun v _ => afterModify_bus_of_mem v⟩⟩

/-! ### INX, INY, DEX and DEY (R187 to R190) -/

/-- Settles O24: the rows of the table, and each instruction's own assignments. -/
theorem indexIncrementAndDecrement : Obligations.IndexIncrementAndDecrement :=
  ⟨assigns_of_rows (by decide +kernel) (by decide +kernel), assigns_of_rows (by decide +kernel) (by decide +kernel),
    assigns_of_rows (by decide +kernel) (by decide +kernel), assigns_of_rows (by decide +kernel) (by decide +kernel),
    fun _ => ⟨rfl, rfl, rfl, rfl⟩⟩

/-! ### The frame of the read-modify-write instructions (R60, R180 to R186) -/

/-- The instructions that read a location and write it back (R181 to R186). -/
def modifyMnemonics : List Mnemonic := [.asl, .lsr, .rol, .ror, .inc, .dec]

theorem operation_of_modify {n : Mnemonic} (h : n ∈ modifyMnemonics) :
    ∃ result carry, operation n = some (readModifyWrite · result carry) := by
  cases n
  case asl | lsr | rol | ror | inc | dec => exact ⟨_, _, rfl⟩
  all_goals exact absurd h (by decide)

/-- Everything a read-modify-write can do at a location: write a byte there and set the flags, or latch the read (R306). -/
theorem exec_modify_cases {i : Instr} {m : Mode} {s t : State} (modifies : i.mnemonic ∈ modifyMnemonics)
    (hm : instrMode i = some m) (he : exec i s = .next t) :
    (∃ v p pc, t = { afterModify m v s with p := p, pc := pc }) ∨
    (∃ addr, modeLoc m s = .mem addr ∧ claimed s.cfg addr = false ∧ t = unclaimedOperand s m addr .read) := by
  obtain ⟨result, carry, hb⟩ := operation_of_modify modifies
  rw [exec_eq_runInstr hm hb] at he
  exact (readModifyWrite_cases he).imp (fun ⟨_, h⟩ => ⟨_, _, _, h⟩) id

/-- From `s` to `t` X and Y stay, and of A, memory and the latch what a write to the location leaves alone. -/
structure ModifyFrame (loc : Loc) (s t : State) : Prop where
  x : t.x = s.x
  y : t.y = s.y
  mem : ∀ addr, loc = .mem addr →
    t.a = s.a ∧ SameMemoryBut addr s t ∧ (claimed s.cfg addr = true → t.fault = s.fault)
  acc : loc = .acc → SameMemory s t ∧ t.fault = s.fault

theorem modifyFrame_afterModify (m : Mode) (v : Byte) (s : State) (p : Status) (pc : Addr) :
    ModifyFrame (modeLoc m s) s { afterModify m v s with p := p, pc := pc } := by
  rw [afterModify, afterOperand]
  cases modeLoc m s with
  | imm _ => exact ⟨rfl, rfl, nofun, nofun⟩
  | acc => exact ⟨rfl, rfl, nofun, fun _ => ⟨fun _ => rfl, rfl⟩⟩
  | mem addr =>
    refine ⟨rfl, rfl, fun other same => ?_, nofun⟩
    cases same
    exact ⟨rfl, fun _ => peek_afterWrite_other (s := afterRead (afterResolve m s) addr) v, fun _ => rfl⟩

theorem modifyFrame_unclaimedOperand {s : State} {addr : Addr} (unclaimed : claimed s.cfg addr = false) (m : Mode)
    (dir : Dir) : ModifyFrame (.mem addr) s (unclaimedOperand s m addr dir) := by
  refine ⟨rfl, rfl, fun other same => ?_, nofun⟩
  cases same
  exact ⟨rfl, fun _ _ => rfl, fun claim => by simp [unclaimed] at claim⟩

theorem modifyFrame_of_exec {i : Instr} {m : Mode} {s t : State} (modifies : i.mnemonic ∈ modifyMnemonics)
    (hm : instrMode i = some m) (he : exec i s = .next t) : ModifyFrame (modeLoc m s) s t := by
  rcases exec_modify_cases modifies hm he with ⟨v, p, pc, rfl⟩ | ⟨addr, loc, unclaimed, rfl⟩
  · exact modifyFrame_afterModify m v s p pc
  · exact loc ▸ modifyFrame_unclaimedOperand unclaimed m .read

/-- What the lists of R22 and R25 say of the read-modify-write instructions. -/
theorem writers_of_modify {n : Mnemonic} (h : n ∈ modifyMnemonics) :
    n ∉ stackPointerWriters ∧ n ∉ interruptWriters ∧ n ∉ decimalWriters ∧ n ∉ overflowWriters ∧
    (n ∈ ([.inc, .dec] : List Mnemonic) → n ∉ carryWriters) := by
  revert n
  decide

/-- Settles O46: S and the flags by the lists of their writers, the rest by what is written at the location. -/
theorem frameOfReadModifyWrite : Obligations.FrameOfReadModifyWrite := by
  intro i m s t u loc modifies hm he resolved
  obtain ⟨keepsS, keepsI, keepsD, keepsV, keepsC⟩ := writers_of_modify modifies
  obtain ⟨flags, sp⟩ := byWriters_of_exec he
  have kept := inputsKept_of_exec he
  obtain ⟨x, y, mem, acc⟩ := modeLoc_of_resolve resolved ▸ modifyFrame_of_exec modifies hm he
  exact ⟨x, y, sp keepsS, flags.i keepsI, flags.d keepsD, flags.v keepsV, ⟨kept.cfg, kept.irq, kept.nmi, kept.nmiPending⟩,
    fun h => flags.c (keepsC h), mem, acc⟩

/-! ### The frame of the register, flag, branch and jump instructions (R187 to R190, R200 to R214, R234 to R247) -/

/-- The instructions without a mode that push or pull (R202 to R205, R230 to R233). -/
def stackMnemonics : List Mnemonic := [.pha, .php, .pla, .plp, .jsr, .rts, .rti, .brk]

/-- The other instructions without a mode. -/
def registerMnemonics : List Mnemonic :=
  [.inx, .iny, .dex, .dey, .tax, .txa, .tay, .tya, .tsx, .txs, .clc, .sec, .cli, .sei, .clv, .cld, .sed, .nop, .bpl, .bmi,
    .bvc, .bvs, .bcc, .bcs, .bne, .beq, .jmp]

/-- From `s` to `t` no byte of memory changes, and of A, X, Y and the latch only what an instruction without a mode names. -/
structure RegisterFrame (i : Instr) (s t : State) : Prop where
  a : i.mnemonic ∉ ([.txa, .tya] : List Mnemonic) → t.a = s.a
  x : i.mnemonic ∉ ([.inx, .dex, .tax, .tsx] : List Mnemonic) → t.x = s.x
  y : i.mnemonic ∉ ([.iny, .dey, .tay] : List Mnemonic) → t.y = s.y
  fault : i.form ≠ .indirectPointer → t.fault = s.fault
  memory : SameMemory s t

namespace RegisterFrame

variable {i : Instr}

theorem flags (s : State) (sp : Byte) (p : Status) (pc : Addr) : RegisterFrame i s { s with sp := sp, p := p, pc := pc } :=
  ⟨fun _ => rfl, fun _ => rfl, fun _ => rfl, fun _ => rfl, fun _ => rfl⟩

theorem accumulator (h : i.mnemonic ∈ ([.txa, .tya] : List Mnemonic)) (s : State) (v : Byte) (p : Status) (pc : Addr) :
    RegisterFrame i s { s with a := v, p := p, pc := pc } :=
  { flags s s.sp p pc with a := absurd h }

theorem indexX (h : i.mnemonic ∈ ([.inx, .dex, .tax, .tsx] : List Mnemonic)) (s : State) (v : Byte) (p : Status)
    (pc : Addr) : RegisterFrame i s { s with x := v, p := p, pc := pc } :=
  { flags s s.sp p pc with x := absurd h }

theorem indexY (h : i.mnemonic ∈ ([.iny, .dey, .tay] : List Mnemonic)) (s : State) (v : Byte) (p : Status) (pc : Addr) :
    RegisterFrame i s { s with y := v, p := p, pc := pc } :=
  { flags s s.sp p pc with y := absurd h }

theorem pointerReads (h : i.form = .indirectPointer) (s : State) (pc : Addr) (fault : Option Fault) (draws : Nat)
    (bus : List BusEvent) : RegisterFrame i s { s with pc := pc, fault := fault, draws := draws, bus := bus } :=
  ⟨fun _ => rfl, fun _ => rfl, fun _ => rfl, absurd h, fun _ => rfl⟩

end RegisterFrame

/-- A branch moves PC past its two bytes, and from there by the displacement if it is taken (R206). -/
theorem runInstr_branch (taken : Status → Bool) (disp : Byte) (s : State) : runInstr (branch taken disp) s =
    .next { s with pc := if taken s.p then s.pc + 2 + sext16 disp else s.pc + 2 } := by
  refine runInstr_ok ?_
  rw [branch, advance_bind, get_bind]
  cases taken s.p <;> rfl

/-- JMP (abs) reads two bytes, and latches the first that is unclaimed (R201, R306). -/
theorem registerFrame_of_jmpInd {p : Addr} {s t : State} (he : exec (.jmpInd p) s = .next t) :
    RegisterFrame (.jmpInd p) s t := by
  cases h : claimed s.cfg p
  · cases (jmpInd_error_low h).symm.trans he
    exact .pointerReads rfl s _ _ _ _
  · cases h' : claimed s.cfg (joinBytes (highByte p) (lowByte p + 1))
    · cases (jmpInd_error_high h h').symm.trans he
      exact .pointerReads rfl s _ _ _ _
    · cases (jmpInd_ok h h').symm.trans he
      exact .pointerReads rfl s _ _ _ _

theorem registerFrame_of_exec {i : Instr} {s t : State} (noMode : instrMode i = none)
    (noStack : i.mnemonic ∉ stackMnemonics) (he : exec i s = .next t) : RegisterFrame i s t := by
  cases i
  case jmpInd p => exact registerFrame_of_jmpInd he
  case bpl | bmi | bvc | bvs | bcc | bcs | bne | beq =>
    cases (runInstr_branch _ _ s).symm.trans he
    exact .flags s s.sp s.p _
  case jmpAbs | nop => cases he; exact .flags s s.sp s.p _
  case clc | sec | cli | sei | clv | cld | sed => cases he; exact .flags s s.sp _ _
  case txs => cases he; exact .flags s s.x s.p _
  case txa | tya => cases he; exact .accumulator (by decide) s _ _ _
  case inx | dex | tax | tsx => cases he; exact .indexX (by decide) s _ _ _
  case iny | dey | tay => cases he; exact .indexY (by decide) s _ _ _
  case pha | php | pla | plp | jsr | rts | rti | brk => exact absurd (by simp [Instr.mnemonic, stackMnemonics]) noStack
  all_goals cases noMode

theorem mnemonic_of_instrMode_none {i : Instr} (h : instrMode i = none) :
    i.mnemonic ∈ stackMnemonics ∨ i.mnemonic ∈ registerMnemonics := by
  unfold instrMode at h
  split at h <;> cases h <;> simp [Instr.mnemonic, stackMnemonics, registerMnemonics]

/-- What the lists of R22, R25 and R35 say of these instructions. -/
theorem writers_of_register {n : Mnemonic} (h : n ∈ registerMnemonics) :
    (n ≠ .txs → n ∉ stackPointerWriters) ∧ (n ∉ ([.clc, .sec] : List Mnemonic) → n ∉ carryWriters) ∧
    (n ∉ ([.cli, .sei] : List Mnemonic) → n ∉ interruptWriters) ∧
    (n ∉ ([.cld, .sed] : List Mnemonic) → n ∉ decimalWriters) ∧ (n ≠ .clv → n ∉ overflowWriters) ∧
    (n ∉ ([.inx, .iny, .dex, .dey, .tax, .txa, .tay, .tya, .tsx] : List Mnemonic) → n ∈ zeroNegativeKeepers) := by
  revert n
  decide

/-- Settles O48: S and the flags by the lists of their writers, the rest by the shape of each instruction. -/
theorem frameOfRegisterInstructions : Obligations.FrameOfRegisterInstructions := by
  intro i s t form noStack he
  have noMode := (instrMode_eq_none_iff i).2 form
  have register := (mnemonic_of_instrMode_none noMode).resolve_left noStack
  obtain ⟨keepsS, keepsC, keepsI, keepsD, keepsV, keepsZN⟩ := writers_of_register register
  obtain ⟨flags, sp⟩ := byWriters_of_exec he
  have kept := inputsKept_of_exec he
  obtain ⟨a, x, y, fault, memory⟩ := registerFrame_of_exec noMode noStack he
  exact ⟨memory, ⟨kept.cfg, kept.irq, kept.nmi, kept.nmiPending⟩, fault, a, x, y, fun h => sp (keepsS h),
    fun h => flags.c (keepsC h), fun h => flags.i (keepsI h), fun h => flags.d (keepsD h), fun h => flags.v (keepsV h),
    fun h => ⟨flags.z (keepsZN h), flags.n (keepsZN h)⟩⟩

end Sys2Proof.Machine
end

section
/-! Jumps, calls, returns and branches (spec/44_control.md R200 to R204, R206 to R214): the next states of the laws of
control, written out field by field. -/

namespace Sys2Proof.Machine

/-! ### Jumps (R200, R201) -/

/-- Settles O25: the move of PC past the instruction is overwritten, and there is no transaction. -/
theorem jumpAbsolute : Obligations.JumpAbsolute := fun _ _ => ⟨rfl, rfl⟩

theorem toNat_eq_bytes (w : Addr) : w.toNat = 256 * (highByte w).toNat + (lowByte w).toNat := by
  rw [← toNat_joinBytes, joinBytes_highByte_lowByte]

/-- The address of the target's high byte stays in the page of the pointer (R201). -/
theorem joinBytes_lowByte_succ (p : Addr) :
    joinBytes (highByte p) (lowByte p + 1) = if lowByte p = 0xFF then p - 0xFF else p + 1 := by
  have bytes := toNat_eq_bytes p
  apply BitVec.eq_of_toNat_eq
  rw [toNat_joinBytes]
  split <;> bv_omega

/-- The same address by the mask of R201. -/
theorem pageMask_or_lowByte_succ (p : Addr) :
    (p &&& 0xFF00) ||| (lowByte p + 1).setWidth 16 = joinBytes (highByte p) (lowByte p + 1) := by
  have page : p &&& (0xFF00 : Addr) = (highByte p).setWidth 16 <<< 8 := by
    ext i hi
    interval_cases i <;> simp [highByte]
  rw [page, joinBytes]

/-- Settles O26: the law of JMP (abs), the address of its second read rewritten. -/
theorem jumpIndirect : Obligations.JumpIndirect := by
  intro s p q
  have high : joinBytes (highByte p) (lowByte p + 1) = q := joinBytes_lowByte_succ p
  refine ⟨rfl, (pageMask_or_lowByte_succ p).trans high, fun hp hq => ?_, fun inPage hp hq => ?_⟩
  · rw [jmpInd_ok hp (high ▸ hq), high]
  · have next : q = p + 1 := if_neg inPage
    have both : claimed16 s.cfg p = true := by rw [claimed16, hp, ← next, hq, Bool.and_self]
    refine ⟨_, _, read16_ok both, ?_⟩
    rw [jmpInd_ok hp (high ▸ hq), high, next]
    rfl

/-! ### Calls and returns (R202 to R204) -/

theorem afterPush16_eq (s : State) (w : Addr) : afterPush16 s w = { s with
    ram := (s.ram.write (0x0100 + s.sp.toNat) (highByte w)).write (0x0100 + (s.sp - 1).toNat) (lowByte w)
    sp := s.sp - 2
    bus := s.bus ++ [.write (0x0100 + s.sp.setWidth 16) (highByte w),
      .write (0x0100 + (s.sp - 1).setWidth 16) (lowByte w)] } := by
  have two : s.sp - 2 = s.sp - 1 - 1 := by bv_omega
  rw [afterPush16, afterPush_eq, afterPush_eq, two]
  simp

theorem afterPull16_eq (s : State) : afterPull16 s = { s with
    sp := s.sp + 2
    bus := s.bus ++ [.read (0x0100 + (s.sp + 1).setWidth 16) (s.ram.read (0x0100 + (s.sp + 1).toNat)),
      .read (0x0100 + (s.sp + 2).setWidth 16) (s.ram.read (0x0100 + (s.sp + 2).toNat))] } := by
  have two : s.sp + 2 = s.sp + 1 + 1 := by bv_omega
  rw [afterPull16, afterPull_eq, afterPull_eq, two]
  simp

theorem pullWord_eq (s : State) :
    pullWord s = joinBytes (s.ram.read (0x0100 + (s.sp + 2).toNat)) (s.ram.read (0x0100 + (s.sp + 1).toNat)) := by
  have two : s.sp + 2 = s.sp + 1 + 1 := by bv_omega
  rw [pullWord, pullByte_eq, pullByte_eq, afterPull_ram, afterPull_sp, two]

/-- What pulls answer depends on RAM and S alone. -/
theorem pullByte_congr {s t : State} (ram : t.ram = s.ram) (sp : t.sp = s.sp) : pullByte t = pullByte s := by
  rw [pullByte_eq, pullByte_eq, ram, sp]

theorem pullWord_congr {s t : State} (ram : t.ram = s.ram) (sp : t.sp = s.sp) : pullWord t = pullWord s := by
  rw [pullWord_eq, pullWord_eq, ram, sp]

theorem afterReturn_eq (s : State) : afterReturn s = { s with
    p := statusOfByte (s.ram.read (0x0100 + (s.sp + 1).toNat))
    sp := s.sp + 3
    pc := joinBytes (s.ram.read (0x0100 + (s.sp + 3).toNat)) (s.ram.read (0x0100 + (s.sp + 2).toNat))
    bus := s.bus ++ [.read (0x0100 + (s.sp + 1).setWidth 16) (s.ram.read (0x0100 + (s.sp + 1).toNat)),
      .read (0x0100 + (s.sp + 2).setWidth 16) (s.ram.read (0x0100 + (s.sp + 2).toNat)),
      .read (0x0100 + (s.sp + 3).setWidth 16) (s.ram.read (0x0100 + (s.sp + 3).toNat))] } := by
  have two : s.sp + 2 = s.sp + 1 + 1 := by bv_omega
  have three : s.sp + 3 = s.sp + 1 + 2 := by bv_omega
  rw [afterReturn, pullByte_eq, pullWord_eq, afterPull16_eq, afterPull_eq, two, three]
  simp

/-- Settles O27: the law of JSR, its two pushes written out. -/
theorem jumpToSubroutine : Obligations.JumpToSubroutine := fun s target =>
  ⟨rfl, by rw [jsr_next, afterPush16_eq]⟩

/-- Settles O28: the law of RTS, its two pulls written out. -/
theorem returnFromSubroutine : Obligations.ReturnFromSubroutine :=
  ⟨assigns_of_rows (by decide +kernel) (by decide +kernel), fun s => by rw [rts_next, pullWord_eq, afterPull16_eq]⟩

/-- Settles O29: the law of RTI, its three pulls written out. -/
theorem returnFromInterrupt : Obligations.ReturnFromInterrupt :=
  ⟨assigns_of_rows (by decide +kernel) (by decide +kernel), fun s => by rw [rti_next, afterReturn_eq]; rfl⟩

/-- Settles O59: two pulls answer the word the JSR pushed, and put S back where it was. -/
theorem callThenReturn : Obligations.CallThenReturn := by
  intro s target
  have word : pullWord { afterPush16 s (s.pc + 2) with pc := target } = s.pc + 2 :=
    calc pullWord { afterPush16 s (s.pc + 2) with pc := target }
      _ = pullWord (afterPush16 s (s.pc + 2)) := pullWord_congr rfl rfl
      _ = s.pc + 2 := pullWord_afterPush16 s _
  have past : s.pc + 2 + 1 = s.pc + 3 := by bv_omega
  refine ⟨_, _, jsr_next s target, rts_next _, by rw [word, past], ?_⟩
  simp [afterPull16, afterPush16]

/-! ### Branches (R206 to R214) -/

/-- A branch whose flag test says `wanted` (R206), the displacement extended as R8 writes it. -/
theorem runInstr_branch_of_iff {taken : Status → Bool} {s : State} {wanted : Prop} [Decidable wanted]
    (h : taken s.p = true ↔ wanted) (d : Byte) : runInstr (branch taken d) s = .next { s with
      pc := if wanted then s.pc + 2 + (if d.getLsbD 7 then d.setWidth 16 + 0xFF00 else d.setWidth 16)
        else s.pc + 2 } := by
  simp only [runInstr_branch, sext16_eq, h]

/-- Settles O31: the rows of the table, and the common rule with each branch's flag and value. -/
theorem branches : Obligations.Branches := by
  refine ⟨assigns_of_rows (by decide +kernel) (by decide +kernel), assigns_of_rows (by decide +kernel) (by decide +kernel),
    assigns_of_rows (by decide +kernel) (by decide +kernel), assigns_of_rows (by decide +kernel) (by decide +kernel),
    assigns_of_rows (by decide +kernel) (by decide +kernel), assigns_of_rows (by decide +kernel) (by decide +kernel),
    assigns_of_rows (by decide +kernel) (by decide +kernel), assigns_of_rows (by decide +kernel) (by decide +kernel),
    fun s d => ?_⟩
  have clear (b : Bool) : (!b) = true ↔ b = false := by simp
  exact ⟨runInstr_branch_of_iff (clear s.p.n) d, runInstr_branch_of_iff Iff.rfl d, runInstr_branch_of_iff (clear s.p.v) d,
    runInstr_branch_of_iff Iff.rfl d, runInstr_branch_of_iff (clear s.p.c) d, runInstr_branch_of_iff Iff.rfl d,
    runInstr_branch_of_iff (clear s.p.z) d, runInstr_branch_of_iff Iff.rfl d⟩

end Sys2Proof.Machine
end

section
/-! The way into a handler and back (spec/44_control.md R204, R205, spec/60_exceptions.md R309, R310): the vector's bytes
stand behind no cell of the stack, so they read after the pushes as before them. -/

namespace Sys2Proof.Machine

/-! ### The status byte and the vector (R26, R65) -/

/-- The pushed status byte as a sum of its bits (R26). -/
theorem statusByte_eq_sum (p : Status) (b4 : Bool) : statusByte p b4 = BitVec.ofNat 8
    (p.n.toNat * 128 + p.v.toNat * 64 + 32 + b4.toNat * 16 + p.d.toNat * 8 + p.i.toNat * 4 + p.z.toNat * 2 +
      p.c.toNat) := by
  rcases p with ⟨c, z, i, d, v, n⟩
  revert c z i d v n b4
  decide

/-- From 0x4020 on no address is a cell of RAM (R48, R52). -/
theorem route_ne_ram_of_cartridge {c : Config} {addr : Addr} (h : 0x4020 ≤ addr) (k : Nat) : route c addr ≠ .ram k := by
  rw [route_of_cartridge h]
  repeat' split
  all_goals exact Target.noConfusion

theorem peek_of_noCartridge {s : State} {addr : Addr} (h : 0x4020 ≤ addr) (noCart : s.cfg.cartPresent = false)
    (lenient : s.cfg.strictUnmapped = false) : peek s addr = some 0x00 := by
  simp [peek, route_of_noCartridge h noCart, lenient]

/-- A read that a peek foretells changes the record of transactions alone (R46). -/
theorem afterRead_of_peek {s : State} {addr : Addr} {v : Byte} (h : peek s addr = some v) :
    afterRead s addr = s.issue (.read addr v) := by
  have noDevice : ∀ r, route s.cfg addr ≠ .device r := fun r hr => by simp [peek, hr] at h
  rw [afterRead, answer_of_peek h]
  exact congrArg (fun n => { s.issue (.read addr v) with draws := n }) (afterRead_draws noDevice)

theorem afterRead16_of_peek {s : State} {addr : Addr} {lo hi : Byte} (hlo : peek s addr = some lo)
    (hhi : peek s (addr + 1) = some hi) :
    afterRead16 s addr = (s.issue (.read addr lo)).issue (.read (addr + 1) hi) := by
  rw [afterRead16, afterRead_of_peek hlo, afterRead_of_peek (s := s.issue _) hhi]

theorem answer16_of_peek {s : State} {addr : Addr} {lo hi : Byte} (hlo : peek s addr = some lo)
    (hhi : peek s (addr + 1) = some hi) : answer16 s addr = joinBytes hi lo := by
  rw [answer16, answer_of_peek hlo, answer_of_peek (s := afterRead s addr) hhi]

/-! ### Entering (R205, R315) -/

/-- The pushes of an entry write the stack page alone, and so no byte of the cartridge space (R52, R55). -/
theorem peek_afterEntryPushes_of_cartridge {s : State} {addr : Addr} (returnTo : Addr) (b4 : Bool) (h : 0x4020 ≤ addr) :
    peek (afterEntryPushes s returnTo b4) addr = peek s addr := by
  have outside (sp : Byte) : route s.cfg addr ≠ route s.cfg (stackAddr sp) :=
    route_stackAddr s.cfg sp ▸ route_ne_ram_of_cartridge h _
  exact peek_afterEntryPushes_other (outside _) (outside _) (outside _)

/-- An entry through a vector whose bytes are known, after its pushes. -/
theorem afterEntry_of_peek {s : State} {vector : Addr} {lo hi : Byte} (returnTo : Addr) (b4 : Bool)
    (low : 0x4020 ≤ vector) (high : 0x4020 ≤ vector + 1) (hlo : peek s vector = some lo)
    (hhi : peek s (vector + 1) = some hi) : afterEntry s returnTo b4 vector = { afterEntryPushes s returnTo b4 with
      p := { s.p with i := true }
      pc := joinBytes hi lo
      bus := (afterEntryPushes s returnTo b4).bus ++ [.read vector lo, .read (vector + 1) hi] } := by
  rw [← peek_afterEntryPushes_of_cartridge returnTo b4 low] at hlo
  rw [← peek_afterEntryPushes_of_cartridge returnTo b4 high] at hhi
  rw [afterEntry, afterRead16_of_peek hlo hhi, answer16_of_peek hlo hhi]
  simp [State.issue]

/-- Settles O30: the law of BRK where its vector is claimed and where it is not, its three pushes written out. -/
theorem breakEntersHandler : Obligations.BreakEntersHandler := by
  refine ⟨assigns_of_rows (by decide +kernel) (by decide +kernel), fun p => statusByte_eq_sum p true,
    fun s => ⟨fun lo hi hlo hhi => ?_, fun noCart lenient => ?_, fun noCart strict => ?_⟩⟩
  · rw [brk_ok (claimed_of_peek hlo), afterEntry_of_peek (vector := irqVector) _ _ (by decide) (by decide) hlo hhi,
      afterEntryPushes_eq]
    rfl
  · exact ⟨peek_of_noCartridge (by decide) noCart lenient, peek_of_noCartridge (by decide) noCart lenient⟩
  · have unclaimed : claimed s.cfg irqVector = false :=
      claimed_eq_false.2 ⟨strict, route_of_noCartridge (by decide) noCart⟩
    rw [brk_error unclaimed, afterEntryPushes_eq]
    rfl

/-! ### Returning (R204, R309) -/

/-- A byte pushed and pulled leaves the word beneath it. -/
theorem pullWord_afterPull_afterPush (s : State) (v : Byte) : pullWord (afterPull (afterPush s v)) = pullWord s := by
  have top : (afterPull (afterPush s v)).sp = s.sp := by simp
  rw [pullWord_eq, pullWord_eq, afterPull_ram, top, read_afterPush_other v (by bv_omega),
    read_afterPush_other v (by bv_omega)]

/-- The return from a handler undoes the entry: PC is the address pushed, S and all six flags are as before (R204, R309). -/
theorem afterReturn_afterEntry (s : State) (returnTo : Addr) (b4 : Bool) (vector : Addr) :
    let u := afterReturn (afterEntry s returnTo b4 vector)
    u.pc = returnTo ∧ u.sp = s.sp ∧ u.p = s.p := by
  have status : pullByte (afterEntry s returnTo b4 vector) = statusByte s.p b4 :=
    calc pullByte (afterEntry s returnTo b4 vector)
      _ = pullByte (afterEntryPushes s returnTo b4) := pullByte_congr rfl rfl
      _ = statusByte s.p b4 := pullByte_afterPush _ _
  have word : pullWord (afterPull (afterEntry s returnTo b4 vector)) = returnTo :=
    calc pullWord (afterPull (afterEntry s returnTo b4 vector))
      _ = pullWord (afterPull (afterEntryPushes s returnTo b4)) := pullWord_congr rfl rfl
      _ = pullWord (afterPush16 s returnTo) := pullWord_afterPull_afterPush _ _
      _ = returnTo := pullWord_afterPush16 s returnTo
  refine ⟨word, ?_, ?_⟩
  · simp [afterReturn, afterPull16, afterEntryPushes, afterPush16]
  · rw [afterReturn, status, statusOfByte_statusByte]

/-- Settles O60: the laws of BRK and RTI, the return undoing the entry. -/
theorem breakThenReturn : Obligations.BreakThenReturn := by
  intro s lo hi hlo _
  obtain ⟨pc, sp, p⟩ := afterReturn_afterEntry s (s.pc + 2) true irqVector
  exact ⟨_, _, brk_ok (claimed_of_peek hlo), rfl, rti_next _, pc, sp, by simp [afterReturn], by simp [afterReturn],
    by simp [afterReturn], p⟩

end Sys2Proof.Machine
end

section
/-! The stack, transfer, flag and no-operation instructions (spec/45_stack_transfer_flags.md R230 to R247), and what the
instructions that push or pull leave unchanged (spec/44_control.md R202 to R205, spec/20_memory.md R55 to R60). -/

namespace Sys2Proof.Machine

/-! ### Pushes and pulls (R230 to R233) -/

/-- The status byte as PHP pushes it, a sum of its bits (R26). -/
theorem php_next_sum (s : State) :
    let status : Byte := BitVec.ofNat 8 (s.p.n.toNat * 128 + s.p.v.toNat * 64 + 32 + 16 + s.p.d.toNat * 8 +
      s.p.i.toNat * 4 + s.p.z.toNat * 2 + s.p.c.toNat)
    exec .php s = .next { afterPush s status with pc := s.pc + 1 } := by
  rw [php_next, statusByte_eq_sum]
  rfl

/-- Settles O32: the laws of PHA and PHP, their push written out. -/
theorem pushInstructions : Obligations.PushInstructions :=
  ⟨assigns_of_rows (by decide +kernel) (by decide +kernel), assigns_of_rows (by decide +kernel) (by decide +kernel),
    fun s => ⟨by rw [pha_next, afterPush_eq], by rw [php_next_sum, afterPush_eq]⟩⟩

/-- Settles O33: the laws of PLA and PLP, their pull written out; the status byte that PHP pushes is the one PLP pulls. -/
theorem pullInstructions : Obligations.PullInstructions := by
  refine ⟨assigns_of_rows (by decide +kernel) (by decide +kernel), assigns_of_rows (by decide +kernel) (by decide +kernel),
    fun s => ⟨by rw [pla_next, pullByte_eq, afterPull_eq]; rfl, by rw [plp_next, pullByte_eq, afterPull_eq]; rfl⟩,
    fun s => ⟨_, _, php_next s, plp_next _, ?_, by simp⟩⟩
  have pulled : pullByte { afterPush s (statusByte s.p true) with pc := s.pc + 1 } = statusByte s.p true :=
    pullByte_afterPush s _
  rw [pulled, statusOfByte_statusByte]

/-! ### Transfers, flags and NOP (R234 to R247) -/

/-- Settles O34: the rows of the table, and each transfer's own assignments. -/
theorem registerTransfers : Obligations.RegisterTransfers :=
  ⟨assigns_of_rows (by decide +kernel) (by decide +kernel), assigns_of_rows (by decide +kernel) (by decide +kernel),
    assigns_of_rows (by decide +kernel) (by decide +kernel), assigns_of_rows (by decide +kernel) (by decide +kernel),
    assigns_of_rows (by decide +kernel) (by decide +kernel), assigns_of_rows (by decide +kernel) (by decide +kernel),
    fun _ => ⟨rfl, rfl, rfl, rfl, rfl, rfl⟩⟩

theorem eq_clv_of_mnemonic {i : Instr} (h : i.mnemonic = .clv) : i = .clv := by
  unfold Instr.mnemonic at h
  split at h <;> cases h
  rfl

/-- Of the writers of V, CLV alone cannot set it (R25, R244). -/
theorem mnemonic_of_overflow_set {i : Instr} {s t : State} (he : exec i s = .next t) (clear : s.p.v = false)
    (set : t.p.v = true) : i.mnemonic ∈ ([.adc, .sbc, .bit, .plp, .rti] : List Mnemonic) := by
  have writes : i.mnemonic ∈ overflowWriters :=
    not_imp_comm.1 (byWriters_of_exec he).flags.v (by simp [clear, set])
  have notClv : i.mnemonic ≠ .clv := fun h => by
    cases eq_clv_of_mnemonic h
    cases he
    cases set
  simpa [overflowWriters, notClv] using writes

theorem addResult_eq_add (a m : Byte) (c : Bool) : addResult a m c = a + m + BitVec.ofNat 8 c.toNat := by
  simp [addResult, addSum, BitVec.ofNat_add]

/-- SBC adds the one's complement, which subtracts the operand and the borrow (R154). -/
theorem addResult_not_eq_sub (a m : Byte) (c : Bool) :
    addResult a (~~~m) c = a - m - BitVec.ofNat 8 (1 - c.toNat) := by
  rw [not_eq_0xFF_sub]
  exact complement_sum_eq_difference a m c

/-- Settles O35: each flag instruction's own assignment, the list of the writers of V, and the laws of ADC and SBC, which
do not look at D. -/
theorem flagInstructions : Obligations.FlagInstructions := by
  refine ⟨assigns_of_rows (by decide +kernel) (by decide +kernel), assigns_of_rows (by decide +kernel) (by decide +kernel),
    assigns_of_rows (by decide +kernel) (by decide +kernel), assigns_of_rows (by decide +kernel) (by decide +kernel),
    assigns_of_rows (by decide +kernel) (by decide +kernel), assigns_of_rows (by decide +kernel) (by decide +kernel),
    assigns_of_rows (by decide +kernel) (by decide +kernel), fun _ => ⟨rfl, rfl, rfl, rfl, rfl, rfl, rfl⟩,
    fun _ _ _ => mnemonic_of_overflow_set, fun i m s t _ hm claim => ⟨fun add => ?_, fun subtract => ?_⟩⟩
  · exact ⟨_, exec_next hm (congrArg operation add) (adc_ok claim), addResult_eq_add _ _ _⟩
  · exact ⟨_, exec_next hm (congrArg operation subtract) (sbc_ok claim), addResult_not_eq_sub _ _ _⟩

/-- Settles O36: the byte 0xEA at PC decodes to NOP, and its fetch is the step's transaction. -/
theorem noOperation : Obligations.NoOperation :=
  ⟨assigns_of_rows (by decide +kernel) (by decide +kernel), fun _ => rfl, fun s running noInterrupt opcode =>
    stepRunsDecodedInstruction s [0xEA] .nop running noInterrupt rfl ⟨opcode, trivial⟩⟩

/-! ### The frame of the instructions that push or pull (R55 to R60, R202 to R205, R230 to R233) -/

theorem peek_afterPush_other {s : State} {other : Addr} (v : Byte)
    (h : route s.cfg other ≠ route s.cfg (stackAddr s.sp)) : peek (afterPush s v) other = peek s other :=
  peek_afterWrite_other v h

theorem peek_afterPush16_other {s : State} {other : Addr} (w : Addr)
    (high : route s.cfg other ≠ route s.cfg (stackAddr s.sp))
    (low : route s.cfg other ≠ route s.cfg (stackAddr (s.sp - 1))) : peek (afterPush16 s w) other = peek s other :=
  (peek_afterPush_other (s := afterPush s (highByte w)) _ low).trans (peek_afterPush_other _ high)

/-- From `s` to `t` X, Y and PRG RAM stay, and of A, the latch and memory what an instruction of the mnemonic does not
pull, latch or push. -/
structure StackFrame (n : Mnemonic) (s t : State) : Prop where
  x : t.x = s.x
  y : t.y = s.y
  prgRam : t.prgRam = s.prgRam
  fault : n ≠ .brk → t.fault = s.fault
  a : n ≠ .pla → t.a = s.a
  memory : ∀ other,
    (n ∈ ([.pha, .php, .jsr, .brk] : List Mnemonic) → route s.cfg other ≠ route s.cfg (stackAddr s.sp)) →
    (n ∈ ([.jsr, .brk] : List Mnemonic) → route s.cfg other ≠ route s.cfg (stackAddr (s.sp - 1))) →
    (n = .brk → route s.cfg other ≠ route s.cfg (stackAddr (s.sp - 2))) → peek t other = peek s other

namespace StackFrame

variable {n : Mnemonic}

/-- Pulls move S and are recorded, and change no byte (R46, R57). -/
theorem pull (s : State) (p : Status) (sp : Byte) (pc : Addr) (draws : Nat) (bus : List BusEvent) :
    StackFrame n s { s with p := p, sp := sp, pc := pc, draws := draws, bus := bus } :=
  ⟨rfl, rfl, rfl, fun _ => rfl, fun _ => rfl, fun _ _ _ _ => rfl⟩

theorem pullToA (s : State) (a : Byte) (p : Status) (sp : Byte) (pc : Addr) (draws : Nat) (bus : List BusEvent) :
    StackFrame .pla s { s with a := a, p := p, sp := sp, pc := pc, draws := draws, bus := bus } :=
  { pull s p sp pc draws bus with a := absurd rfl }

theorem push (h : n ∈ ([.pha, .php, .jsr, .brk] : List Mnemonic)) (s : State) (v : Byte) (pc : Addr) :
    StackFrame n s { afterPush s v with pc := pc } :=
  ⟨rfl, rfl, afterPush_prgRam s v, fun _ => rfl, fun _ => rfl, fun _ top _ _ => peek_afterPush_other v (top h)⟩

theorem call (s : State) (w pc : Addr) : StackFrame .jsr s { afterPush16 s w with pc := pc } :=
  ⟨afterPush16_x s w, afterPush16_y s w, afterPush16_prgRam s w, fun _ => afterPush16_fault s w,
    fun _ => afterPush16_a s w, fun _ high low _ => peek_afterPush16_other w (high (by decide)) (low (by decide))⟩

theorem entryPushes (s : State) (returnTo : Addr) (b4 : Bool) : StackFrame .brk s (afterEntryPushes s returnTo b4) :=
  ⟨afterEntryPushes_x s _ _, afterEntryPushes_y s _ _, afterEntryPushes_prgRam s _ _, absurd rfl,
    fun _ => afterEntryPushes_a s _ _, fun _ high low status =>
      peek_afterEntryPushes_other (high (by decide)) (low (by decide)) (status rfl)⟩

/-- The vector is read after the pushes, and a read changes no byte (R46, R205). -/
theorem readVector {s t : State} (h : StackFrame n s t) (vector : Addr) (p : Status) (pc : Addr) :
    StackFrame n s { afterRead16 t vector with p := p, pc := pc } :=
  ⟨h.x, h.y, h.prgRam, h.fault, h.a, h.memory⟩

/-- A refused vector read keeps what the pushes wrote (R306). -/
theorem latch {s t : State} (h : StackFrame .brk s t) (f : Fault) : StackFrame .brk s (latchFault s f t) :=
  ⟨rfl, rfl, h.prgRam, absurd rfl, fun _ => rfl, h.memory⟩

end StackFrame

theorem stackFrame_of_brk {s t : State} (he : exec .brk s = .next t) : StackFrame .brk s t := by
  have pushed := StackFrame.entryPushes s (s.pc + 2) true
  cases h : claimed s.cfg irqVector
  · cases (brk_error h).symm.trans he
    exact pushed.latch _
  · cases (brk_ok h).symm.trans he
    exact pushed.readVector irqVector _ _

theorem stackFrame_of_exec {i : Instr} {s t : State} (stack : i.mnemonic ∈ stackMnemonics) (he : exec i s = .next t) :
    StackFrame i.mnemonic s t := by
  cases i
  case pha => cases (pha_next s).symm.trans he; exact .push (by decide) s _ _
  case php => cases (php_next s).symm.trans he; exact .push (by decide) s _ _
  case pla => cases (pla_next s).symm.trans he; exact .pullToA s _ _ _ _ _ _
  case plp => cases (plp_next s).symm.trans he; exact .pull s _ _ _ _ _
  case jsr target => cases (jsr_next s target).symm.trans he; exact .call s _ _
  case rts => rw [rts_next, afterPull16_eq] at he; cases he; exact .pull s s.p _ _ _ _
  case rti => rw [rti_next, afterReturn_eq] at he; cases he; exact .pull s _ _ _ _ _
  case brk => exact stackFrame_of_brk he
  all_goals simp [Instr.mnemonic, stackMnemonics] at stack

theorem FlagsByWriters.eq {n : Mnemonic} {p q : Status} (h : FlagsByWriters n p q) (keepsC : n ∉ carryWriters)
    (keepsI : n ∉ interruptWriters) (keepsD : n ∉ decimalWriters) (keepsV : n ∉ overflowWriters)
    (keepsZN : n ∈ zeroNegativeKeepers) : q = p := by
  change Status.mk q.c q.z q.i q.d q.v q.n = p
  rw [h.c keepsC, h.z keepsZN, h.i keepsI, h.d keepsD, h.v keepsV, h.n keepsZN]

/-- Settles O47: the flags by the lists of their writers, the rest by the shape of each instruction. -/
theorem frameOfStackInstructions : Obligations.FrameOfStackInstructions := by
  intro i s t stack he
  have flags := (byWriters_of_exec he).flags
  have kept := inputsKept_of_exec he
  obtain ⟨x, y, prgRam, fault, a, memory⟩ := stackFrame_of_exec stack he
  refine ⟨x, y, ⟨kept.cfg, kept.irq, kept.nmi, kept.nmiPending⟩, prgRam, fault, a, fun keeps => ?_, fun pla => ?_,
    fun brk => ?_, memory⟩
  · have denied : ∀ n ∈ ([.pha, .php, .jsr, .rts] : List Mnemonic), n ∉ carryWriters ∧ n ∉ interruptWriters ∧
        n ∉ decimalWriters ∧ n ∉ overflowWriters ∧ n ∈ zeroNegativeKeepers := by decide
    obtain ⟨keepsC, keepsI, keepsD, keepsV, keepsZN⟩ := denied _ keeps
    exact flags.eq keepsC keepsI keepsD keepsV keepsZN
  · rw [pla] at flags
    exact ⟨flags.c (by decide), flags.i (by decide), flags.d (by decide), flags.v (by decide)⟩
  · rw [brk] at flags
    exact ⟨flags.c (by decide), flags.z (by decide), flags.d (by decide), flags.v (by decide), flags.n (by decide)⟩

end Sys2Proof.Machine
end

section
/-! The interrupts of the extension (spec/60_exceptions.md R312 to R315): which request a step takes, and the one entry of
both, written out with its three pushes. -/

namespace Sys2Proof.Machine

/-! ### Which request is taken (R312 to R314) -/

theorem acceptedInterrupt_nmi {s : State} (extension : s.cfg.hasIrqNmi = true) (pending : s.nmiPending = true) :
    acceptedInterrupt s = some .nmi := by
  simp [acceptedInterrupt, extension, pending]

theorem acceptedInterrupt_irq {s : State} (extension : s.cfg.hasIrqNmi = true) (noNmi : s.nmiPending = false)
    (active : s.irq = true) (enabled : s.p.i = false) : acceptedInterrupt s = some .irq := by
  simp [acceptedInterrupt, extension, noNmi, active, enabled]

theorem acceptedInterrupt_none {s : State}
    (h : s.cfg.hasIrqNmi = false ∨ (s.nmiPending = false ∧ (s.irq = false ∨ s.p.i = true))) :
    acceptedInterrupt s = none := by
  rcases h with absent | ⟨noNmi, inactive | masked⟩
  · simp [acceptedInterrupt, absent]
  · simp [acceptedInterrupt, noNmi, inactive]
  · simp [acceptedInterrupt, noNmi, masked]

/-! ### The entry (R313 to R315) -/

/-- The vector of an interrupt (R65). -/
def vectorOf : Interrupt → Addr
  | .nmi => nmiVector
  | .irq => irqVector

/-- The state in which an interrupt is entered: an NMI that is taken is pending no more (R313). -/
def acknowledged (k : Interrupt) (s : State) : State :=
  { s with
    nmiPending := match k with
      | .nmi => false
      | .irq => s.nmiPending }

theorem takeInterrupt_eq (k : Interrupt) (s : State) : takeInterrupt k s =
    .next (if claimed s.cfg (vectorOf k) then afterEntry (acknowledged k s) s.pc false (vectorOf k)
      else latchFault s (.unmappedMemoryAccess (vectorOf k) .read)
        (afterEntryPushes (acknowledged k s) s.pc false)) := by
  cases k with
  | nmi => exact takeInterrupt_nmi s
  | irq => exact takeInterrupt_irq s

/-- Both bytes of a vector lie in the cartridge space (R52, R65). -/
theorem vectorOf_in_cartridge (k : Interrupt) : 0x4020 ≤ vectorOf k ∧ 0x4020 ≤ vectorOf k + 1 := by
  cases k <;> decide

/-- An entry whose vector can be read, field by field (R315). -/
theorem step_interrupt_of_peek {s : State} {k : Interrupt} {lo hi : Byte} (running : Running s)
    (hk : acceptedInterrupt s = some k) (hlo : peek s (vectorOf k) = some lo) (hhi : peek s (vectorOf k + 1) = some hi) :
    step s = .next { acknowledged k s with
      ram := ((s.ram.write (0x0100 + s.sp.toNat) (highByte s.pc)).write (0x0100 + (s.sp - 1).toNat)
        (lowByte s.pc)).write (0x0100 + (s.sp - 2).toNat) (statusByte s.p false)
      sp := s.sp - 3
      p := { s.p with i := true }
      pc := joinBytes hi lo
      bus := [.write (0x0100 + s.sp.setWidth 16) (highByte s.pc),
        .write (0x0100 + (s.sp - 1).setWidth 16) (lowByte s.pc),
        .write (0x0100 + (s.sp - 2).setWidth 16) (statusByte s.p false), .read (vectorOf k) lo,
        .read (vectorOf k + 1) hi] } := by
  obtain ⟨low, high⟩ := vectorOf_in_cartridge k
  have claim : claimed (beginRequest s).cfg (vectorOf k) = true := claimed_of_peek hlo
  rw [step_interrupt running hk, takeInterrupt_eq, if_pos claim,
    afterEntry_of_peek (s := acknowledged k (beginRequest s)) _ _ low high hlo hhi, afterEntryPushes_eq]
  rfl

/-- An entry whose vector is unclaimed keeps its pushes and changes no register (R306; log entry 7). -/
theorem step_interrupt_unclaimed {s : State} {k : Interrupt} (running : Running s) (hk : acceptedInterrupt s = some k)
    (noCart : s.cfg.cartPresent = false) (strict : s.cfg.strictUnmapped = true) :
    step s = .next { acknowledged k s with
      ram := ((s.ram.write (0x0100 + s.sp.toNat) (highByte s.pc)).write (0x0100 + (s.sp - 1).toNat)
        (lowByte s.pc)).write (0x0100 + (s.sp - 2).toNat) (statusByte s.p false)
      fault := some (.unmappedMemoryAccess (vectorOf k) .read)
      bus := [.write (0x0100 + s.sp.setWidth 16) (highByte s.pc),
        .write (0x0100 + (s.sp - 1).setWidth 16) (lowByte s.pc),
        .write (0x0100 + (s.sp - 2).setWidth 16) (statusByte s.p false)] } := by
  have unclaimed : claimed (beginRequest s).cfg (vectorOf k) = false :=
    claimed_eq_false.2 ⟨strict, route_of_noCartridge (vectorOf_in_cartridge k).1 noCart⟩
  rw [step_interrupt running hk, takeInterrupt_eq, unclaimed, afterEntryPushes_eq]
  rfl

/-- Bit 4 of a pushed status byte tells an interrupt from BRK and PHP (R26). -/
theorem statusByte_bit4 (p : Status) (b4 : Bool) : (statusByte p b4).getLsbD 4 = b4 := by
  rcases p with ⟨c, z, i, d, v, n⟩
  revert c z i d v n b4
  decide

/-- Settles O55: the request a step takes, and the entry where its vector is claimed and where it is not. -/
theorem interruptEntry : Obligations.InterruptEntry := fun s running =>
  ⟨fun _ _ extension pending => step_interrupt_of_peek running (acceptedInterrupt_nmi extension pending),
    fun _ _ extension noNmi active enabled =>
      step_interrupt_of_peek running (acceptedInterrupt_irq extension noNmi active enabled),
    fun extension noCart strict =>
      ⟨fun pending => step_interrupt_unclaimed running (acceptedInterrupt_nmi extension pending) noCart strict,
        fun noNmi active enabled =>
          step_interrupt_unclaimed running (acceptedInterrupt_irq extension noNmi active enabled) noCart strict⟩,
    acceptedInterrupt_none, statusByte_eq_sum s.p false, statusByte_bit4 s.p false, statusByte_bit4 s.p true, by simp⟩

end Sys2Proof.Machine
end

section
/-! A fault is latched, never answered by the step that meets it (spec/60_exceptions.md R302, R305, R306, R308): what a step
that fills the latch can have done, said once, and what it leaves of the state. -/

namespace Sys2Proof.Machine

/-! ### What a step that fills the latch has done (R302, R306) -/

/-- An instruction leaves the latch as it was, or latches a fault with nothing but its reads done, or is a BRK that latches
the refused read of its vector after the pushes. -/
theorem latch_cases_of_effect {i : Instr} {s t : State} (he : Effect i s t) : t.fault = s.fault ∨
    (∃ f draws bus, t = { s with fault := some f, draws := draws, bus := bus }) ∨
    (i = .brk ∧ ∃ f, t = latchFault s f (afterEntryPushes s (s.pc + 2) true)) := by
  cases he with
  | unclaimed _ _ _ _ eq | jumpUnclaimed _ _ _ eq => exact .inr (.inl ⟨_, _, _, eq⟩)
  | breakUnclaimed brk _ eq => exact .inr (.inr ⟨brk, _, eq⟩)
  | reads m _ _ _ _ _ _ eq => exact .inl (eq ▸ afterOperand_fault m s)
  | stores m _ _ _ eq | modifies m _ _ _ _ eq =>
    refine .inl (eq ▸ ?_)
    cases m <;> rfl
  | registers _ _ _ _ _ _ eq | pushes _ _ eq | calls _ _ eq | pulls _ _ _ eq | returns _ eq | returnsFromHandler eq
  | breaks _ _ eq | jumps _ _ _ eq =>
    refine .inl (eq ▸ ?_)
    simp [afterReturn]

/-- An interrupt entry leaves the latch as it was, or latches the refused read of its vector after the pushes (log
entry 7). -/
theorem latch_cases_of_takeInterrupt {k : Interrupt} {s t : State} (ht : takeInterrupt k s = .next t) :
    t.fault = s.fault ∨ ∃ f, t = latchFault s f (afterEntryPushes (acknowledged k s) s.pc false) := by
  cases (takeInterrupt_eq k s).symm.trans ht
  split
  · exact .inl (afterEntry_fault _ _ _ _)
  · exact .inr ⟨_, rfl⟩

/-- A fetch changes nothing but the device counter and the record of transactions, whether it answers or raises (R46). -/
theorem eq_of_fetchInstr_ok {i : Instr} {s t : State} (hf : fetchInstr s = .ok i t) :
    ∃ draws bus, t = { s with draws := draws, bus := bus } := by
  rcases fetchInstr_cases s with ⟨_, draws, bus, _, e⟩ | ⟨_, _, _, _, e, _⟩
  · cases e.symm.trans hf
    exact ⟨draws, bus, rfl⟩
  · cases e.symm.trans hf

theorem eq_of_fetchInstr_error {f : Fault} {s t : State} (hf : fetchInstr s = .error f t) :
    ∃ draws bus, t = { s with draws := draws, bus := bus } := by
  rcases fetchInstr_cases s with ⟨_, _, _, _, e⟩ | ⟨_, draws, bus, _, e, _⟩
  · cases e.symm.trans hf
  · cases e.symm.trans hf
    exact ⟨draws, bus, rfl⟩

/-- Everything a step that fills the latch can have done: reads alone, or the three pushes of an interrupt entry or of
BRK. -/
theorem step_latch_cases {s u : State} (h : step s = .next u) (latched : u.fault ≠ none) :
    (∃ f draws bus, u = { s with fault := some f, draws := draws, bus := bus }) ∨
    ((acceptedInterrupt s ≠ none ∨ ∃ t, fetchInstr (beginRequest s) = .ok .brk t) ∧
      ∃ f returnTo b4 pending draws bus, u = latchFault s f
        (afterEntryPushes { s with nmiPending := pending, draws := draws, bus := bus } returnTo b4)) := by
  obtain ⟨running, ⟨k, hk, ht⟩ | ⟨-, i, t, hf, he⟩ | ⟨-, f, t, hf, rfl⟩⟩ := step_cases h
  · rcases latch_cases_of_takeInterrupt ht with kept | ⟨f, rfl⟩
    · exact absurd (kept.trans running) latched
    · exact .inr ⟨.inl (by simp [hk]), f, _, _, _, _, _, rfl⟩
  · obtain ⟨_, _, rfl⟩ := eq_of_fetchInstr_ok hf
    rcases latch_cases_of_effect (exec_cases he) with kept | ⟨f, draws, bus, rfl⟩ | ⟨rfl, f, rfl⟩
    · exact absurd (kept.trans running) latched
    · exact .inl ⟨f, draws, bus, rfl⟩
    · exact .inr ⟨.inr ⟨_, hf⟩, f, _, _, _, _, _, rfl⟩
  · obtain ⟨draws, bus, rfl⟩ := eq_of_fetchInstr_error hf
    exact .inl ⟨f, draws, bus, rfl⟩

/-- The memory is read through the arbiter, which looks at no register and not at the latch. -/
theorem peek_latchFault (s0 : State) (f : Fault) (t : State) (addr : Addr) : peek (latchFault s0 f t) addr = peek t addr :=
  rfl

/-- Settles O41, by what a step that fills the latch can have done (`step_latch_cases`). -/
theorem faultsArePrecise : Obligations.FaultsArePrecise := by
  intro s u h latched
  rcases step_latch_cases h latched with ⟨f, draws, bus, rfl⟩ | ⟨pushing, f, returnTo, b4, pending, draws, bus, rfl⟩
  · exact ⟨⟨rfl, rfl, rfl, rfl, rfl, rfl⟩, rfl, rfl, .inl fun _ => rfl, fun _ _ _ _ => rfl⟩
  · refine ⟨⟨rfl, rfl, rfl, rfl, rfl, rfl⟩, by simp, by simp, .inr pushing, fun addr top next last => ?_⟩
    rw [peek_latchFault]
    exact peek_afterEntryPushes_other (s := { s with nmiPending := pending, draws := draws, bus := bus }) top next last

/-! ### Every outcome is a next state or the latched fault (R305; log entry 6) -/

theorem exists_next_of_runInstr (body : Bus Unit) (s : State) : ∃ t, runInstr body s = .next t := by
  cases h : body s with
  | ok _ t => exact ⟨t, runInstr_ok h⟩
  | error f t => exact ⟨_, runInstr_error h⟩

/-- An instruction is a body run as a whole (R3); the immediate, accumulator and register forms issue no transaction, and
their next state is computed. -/
theorem exists_next_of_exec (i : Instr) (s : State) : ∃ t, exec i s = .next t := by
  cases i
  case oraImm | andImm | eorImm | adcImm | sbcImm | cmpImm | cpxImm | cpyImm | ldaImm | ldxImm | ldyImm | aslAcc | lsrAcc
      | rolAcc | rorAcc | jmpAbs | clc | sec | cli | sei | cld | sed | clv | tax | txa | tay | tya | tsx | txs | inx | iny
      | dex | dey | nop =>
    exact ⟨_, rfl⟩
  all_goals exact exists_next_of_runInstr _ s

theorem exists_next_of_step {s : State} (running : Running s) : ∃ t, step s = .next t := by
  cases hk : acceptedInterrupt s with
  | some k => exact ⟨_, (step_interrupt running hk).trans (takeInterrupt_eq k _)⟩
  | none =>
    cases hf : fetchInstr (beginRequest s) with
    | ok i t => exact step_fetch_ok running hk hf ▸ exists_next_of_exec i t
    | error f t => exact ⟨_, step_fetch_error running hk hf⟩

/-- Settles O43: a body answers a next state whether or not it raises, and a full latch is answered. -/
theorem execAnswersNextAndNoStepIsRefused : Obligations.ExecAnswersNextAndNoStepIsRefused := by
  refine ⟨exists_next_of_exec, fun s => ?_⟩
  cases h : s.fault with
  | none => exact .inl (exists_next_of_step h)
  | some f => exact .inr ⟨f, rfl, step_latched h⟩

/-- A reset whose vector can be read clears the latch (R305, R330). -/
theorem resetRequest_fault {s : State} (h : claimed s.cfg resetVector = true) : (resetRequest s).fault = none := by
  rcases resetRequest_cases s with ⟨-, e⟩ | ⟨unclaimed, -⟩
  · rw [e, afterRead16_fault, resetRegisters_fault]
  · simp [h] at unclaimed

/-- Settles O40: a full latch is all a step looks at, and of the requests from outside only a reset writes it. -/
theorem latchedFaultIsTerminal : Obligations.LatchedFaultIsTerminal := fun s _ h =>
  ⟨step_latched h, h, fun level => ⟨(driveIrq_fault s level).trans h, (driveNmi_fault s level).trans h⟩, resetRequest_fault⟩

end Sys2Proof.Machine
end

section
/-! Unclaimed accesses and illegal opcodes, access by access (spec/60_exceptions.md R301, R302, R306, R307): those of an
instruction's operand and pointer, then those of the fetch. -/

namespace Sys2Proof.Machine

/-! ### The operand and the pointer of an instruction (R306, R307) -/

/-- The direction in which a mnemonic first touches its location: only a store writes without a read (R133, R180). -/
def firstAccess (n : Mnemonic) : Dir := if n ∈ storeMnemonics then .write else .read

/-- An instruction with a mode is a reader, a store or a read-modify-write (R116, R117, R180). -/
theorem mnemonic_of_instrMode {i : Instr} {m : Mode} (h : instrMode i = some m) :
    i.mnemonic ∈ operandReaders ∨ i.mnemonic ∈ storeMnemonics ∨ i.mnemonic ∈ modifyMnemonics := by
  unfold instrMode at h
  split at h <;> cases h <;> simp [Instr.mnemonic, operandReaders, storeMnemonics, modifyMnemonics]

theorem firstAccess_of_reader {n : Mnemonic} (h : n ∈ operandReaders) : firstAccess n = .read := by
  revert n
  decide

theorem firstAccess_of_modify {n : Mnemonic} (h : n ∈ modifyMnemonics) : firstAccess n = .read := by
  revert n
  decide

/-- Every instruction with a mode raises its first access to an unclaimed location, the pointer reads of the mode done. -/
theorem operation_error {i : Instr} {m : Mode} (hm : instrMode i = some m) :
    ∃ body, operation i.mnemonic = some body ∧ ∀ {s : State} {addr : Addr}, modeLoc m s = .mem addr →
      claimed s.cfg addr = false → body m s = .error (.unmappedMemoryAccess addr (firstAccess i.mnemonic))
        { afterResolve m s with pc := s.pc + BitVec.ofNat 16 (modeLength m) } := by
  rcases mnemonic_of_instrMode hm with reader | store | modifies
  · obtain ⟨body, g, hb, hbody, -⟩ := operation_of_reader reader
    rw [firstAccess_of_reader reader]
    exact ⟨body, hb, fun loc unclaimed => hbody m ▸ operandThen_error g loc unclaimed⟩
  · obtain ⟨r, hb, -⟩ := operation_of_store store
    rw [firstAccess, if_pos store]
    exact ⟨_, hb, store_error r⟩
  · obtain ⟨result, carry, hb⟩ := operation_of_modify modifies
    rw [firstAccess_of_modify modifies]
    exact ⟨_, hb, readModifyWrite_error result carry⟩

/-- Settles O37: the operation of the mnemonic raises its first access, and JMP (abs) each of its two reads. -/
theorem unclaimedAccessTraps : Obligations.UnclaimedAccessTraps := by
  refine ⟨fun i m s addr hm loc unclaimed => ?_, fun s p => ⟨jmpInd_error_low, jmpInd_error_high⟩⟩
  obtain ⟨body, hb, raises⟩ := operation_error hm
  rw [exec_eq_runInstr hm hb, runInstr_error (raises loc unclaimed)]
  rfl

/-! ### The fetch (R301, R306, R307) -/

/-- Settles O38: the fetch raises the illegal opcode after its one read, and the step latches it. -/
theorem illegalOpcodeIsLatched : Obligations.IllegalOpcodeIsLatched := fun s running noInterrupt claim illegal =>
  step_fetch_error running noInterrupt (fetchInstr_illegal (s := beginRequest s) claim illegal)

theorem step_unclaimed_opcode {s : State} (running : Running s) (noInterrupt : acceptedInterrupt s = none)
    (unclaimed : claimed s.cfg s.pc = false) :
    step s = .next { s with fault := some (.unmappedMemoryAccess s.pc .read), bus := [] } :=
  step_fetch_error running noInterrupt (fetchInstr_unclaimed (s := beginRequest s) unclaimed)

/-- The first unclaimed operand byte is latched, the reads before it done (R306). -/
theorem step_unclaimed_operand {s : State} {n k : Nat} (running : Running s) (noInterrupt : acceptedInterrupt s = none)
    (count : operandCount (answer s s.pc) = some n) (hk : k < n)
    (claim : ∀ j, j ≤ k → claimed s.cfg (s.pc + BitVec.ofNat 16 j) = true)
    (unclaimed : claimed s.cfg (s.pc + BitVec.ofNat 16 (k + 1)) = false) :
    step s = .next (latchFault s (.unmappedMemoryAccess (s.pc + BitVec.ofNat 16 (k + 1)) .read)
      (afterReads (k + 1) s.pc (beginRequest s))) :=
  step_fetch_error running noInterrupt (fetchInstr_unclaimed_operand (s := beginRequest s) count hk claim unclaimed)

theorem claimed_first {s : State} (h : claimed s.cfg s.pc = true) (k : Nat) (hk : k ≤ 0) :
    claimed s.cfg (s.pc + BitVec.ofNat 16 k) = true := by
  obtain rfl := Nat.le_zero.1 hk
  simpa using h

theorem claimed_firstTwo {s : State} (h : claimed s.cfg s.pc = true) (h' : claimed s.cfg (s.pc + 1) = true) (k : Nat)
    (hk : k ≤ 1) : claimed s.cfg (s.pc + BitVec.ofNat 16 k) = true := by
  rcases Nat.le_one_iff_eq_zero_or_eq_one.1 hk with rfl | rfl
  · exact claimed_first h 0 le_rfl
  · exact h'

/-- Settles O39, by how many operand bytes the opcode asks for: as many as are claimed are fetched and the instruction runs
(O50), one more is latched, and an illegal opcode asks for none (O38). -/
theorem unclaimedFetchIsLatched : Obligations.UnclaimedFetchIsLatched := by
  refine fun s running noInterrupt => ⟨step_unclaimed_opcode running noInterrupt, fun claim unclaimed => ?_,
    fun claim claim' unclaimed => ?_⟩
  · match count : operandCount (answer s s.pc) with
    | none => exact illegalOpcodeIsLatched s running noInterrupt claim count
    | some 0 => exact (stepRunsFetchedInstruction s 0 running noInterrupt count (claimed_first claim)).2
    | some (n + 1) =>
      exact step_unclaimed_operand running noInterrupt count n.succ_pos (claimed_first claim) unclaimed
  · match count : operandCount (answer s s.pc) with
    | none => exact illegalOpcodeIsLatched s running noInterrupt claim count
    | some 0 => exact (stepRunsFetchedInstruction s 0 running noInterrupt count (claimed_first claim)).2
    | some 1 => exact (stepRunsFetchedInstruction s 1 running noInterrupt count (claimed_firstTwo claim claim')).2
    | some (n + 2) =>
      exact step_unclaimed_operand running noInterrupt count (by omega) (claimed_firstTwo claim claim') unclaimed

end Sys2Proof.Machine
end

section
/-! Reset requests and power-on (spec/70_reset_and_hazards.md R330 to R333): what a reset leaves where its vector can be read
and where the read is refused, the bytes the vector is made of, and the invariant that every reset keeps. -/

namespace Sys2Proof.Machine

/-! ### The reset request (R330, R332) -/

/-- Settles O53 (`resetRequest` itself names the model's function): the vector is claimed, and its two reads change the
record of transactions alone. -/
theorem resetRequest_eq_of_peek : Obligations.ResetRequest := by
  intro s lo hi hlo hhi
  rcases resetRequest_cases s with ⟨-, e⟩ | ⟨unclaimed, -⟩
  · rw [e, afterRead16_of_peek (s := resetRegisters s) (addr := resetVector) hlo hhi,
      answer16_of_peek (s := resetRegisters s) (addr := resetVector) hlo hhi]
    rfl
  · cases (claimed_of_peek hlo).symm.trans unclaimed

theorem resetRequest_unclaimed {s : State} (unclaimed : claimed s.cfg resetVector = false) :
    resetRequest s = { resetRegisters s with
      pc := 0x0000, fault := some (.unmappedMemoryAccess resetVector .read) } := by
  rcases resetRequest_cases s with ⟨claim, -⟩ | ⟨-, e⟩
  · cases claim.symm.trans unclaimed
  · exact e

/-! ### The bytes of the vector (R52, R53, R333) -/

theorem peek_of_prgRom {s : State} {addr : Addr} (cart : s.cfg.cartPresent = true) (h : 0x8000 ≤ addr) :
    peek s addr = some (s.cfg.prgRom.read ((addr.toNat - 0x8000) % prgRomBytes s.cfg.prgRomSize)) := by
  simp [peek, route_of_prgRom cart h]

/-- With no cartridge both bytes of the vector read 0x00, unless the strict policy refuses the read (R332). -/
theorem resetRequest_of_noCartridge {s : State} (noCart : s.cfg.cartPresent = false)
    (lenient : s.cfg.strictUnmapped = false) : resetRequest s = { resetRegisters s with
      pc := 0x0000, bus := [.read 0xFFFC 0x00, .read 0xFFFD 0x00] } :=
  resetRequest_eq_of_peek s 0x00 0x00 (peek_of_noCartridge (by decide) noCart lenient)
    (peek_of_noCartridge (by decide) noCart lenient)

/-- Settles O54, by where the arbiter sends the two addresses of the vector. -/
theorem resetVectorSource : Obligations.ResetVectorSource := by
  refine fun s => ⟨fun noCart lenient => ?_, fun noCart strict => ?_, fun cart => ?_⟩
  · rw [resetRequest_of_noCartridge noCart lenient]
    exact ⟨rfl, rfl⟩
  · have e := resetRequest_unclaimed (claimed_eq_false.2 ⟨strict, route_of_noCartridge (by decide) noCart⟩)
    rw [e]
    exact ⟨rfl, rfl, rfl, rfl⟩
  · rw [resetRequest_eq_of_peek s _ _ (peek_of_prgRom cart (by decide)) (peek_of_prgRom cart (by decide))]
    cases s.cfg.prgRomSize <;> exact ⟨rfl, rfl⟩

/-! ### The invariant at reset and power-on (R330, R331) -/

theorem resetRequest_prgRam (s : State) : (resetRequest s).prgRam = s.prgRam := by
  rcases resetRequest_cases s with ⟨-, e⟩ | ⟨-, e⟩ <;> simp [e]

/-- A reset writes no memory, clears `nmi_pending`, and clears the latch or fills it with the unclaimed vector. -/
theorem Invariant.resetRequest {s : State} (h : Invariant s) : Invariant (resetRequest s) := by
  have registers : Invariant (resetRegisters s) := ⟨h.config, h.memory, trivial, fun _ => rfl⟩
  rcases resetRequest_cases s with ⟨-, e⟩ | ⟨unclaimed, e⟩
  · have kept : InputsKept (resetRegisters s) (afterRead16 (resetRegisters s) resetVector) :=
      (inputsKept_afterRead _ _).trans (inputsKept_afterRead _ _)
    rw [e]
    exact registers.of_inputsKept kept.withRegisters
      ((registers.memory.afterRead _).afterRead _).withRegisters (latchTrue_of_running rfl)
  · rw [e]
    exact registers.of_inputsKept (InputsKept.refl _).withRegisters registers.memory.withRegisters
      (latchTrue_of_unclaimed rfl unclaimed)

/-- Well-formed parameters give the block well-formed memories to be reset with (R331). -/
theorem invariant_powerOn {c : Config} (h : ConfigWf c) : Invariant (powerOn c) := by
  have ⟨ramWf, ramBelow, _, _, prgRamWf, prgRamBelow⟩ := h
  exact Invariant.resetRequest ⟨h, ⟨ramWf, ramBelow, prgRamWf, prgRamBelow⟩, trivial, fun _ => rfl⟩

theorem configWf_standard : ConfigWf Config.standard := by
  unfold ConfigWf
  decide

/-- `State.reset` holds what power-on computes from the parameters `Config.standard`, which have no cartridge (log
entry 2). -/
theorem reset_eq_powerOn : State.reset = powerOn Config.standard :=
  (resetRequest_of_noCartridge (s := State.reset) rfl rfl).symm

/-- Settles O52: power-on is a reset, a reset writes neither memory, and it keeps the invariant. -/
theorem resetsHaveInvariant : Obligations.ResetsHaveInvariant :=
  ⟨reset_eq_powerOn, reset_eq_powerOn ▸ invariant_powerOn configWf_standard,
    fun _ => ⟨⟨_, rfl, rfl, rfl, rfl⟩, resetRequest_ram _, resetRequest_prgRam _⟩,
    fun _ => invariant_powerOn, fun _ => Invariant.resetRequest⟩

end Sys2Proof.Machine
end
